-- ==== Sys2Proof/Word.lean ====
section
/-! DEFINITION. The word types of the block (00_scope.md R8 to R10): bytes and byte sequences. -/

namespace Sys2Proof

/-- A byte: 8 bits, bit 7 the most significant (00_scope.md R8). -/
abbrev Byte := BitVec 8

/-- A byte sequence; element 0 is the lowest index (00_scope.md R9). -/
abbrev Bytes := List Byte

end Sys2Proof
end

