-- ==== Sys2Proof/Config.lean ====
section
/-! DEFINITION. What an implementation fixes: the hard-wired parameters of 00_scope.md R6 and the open
parameters of R7. -/

namespace Sys2Proof.Config

/-- `Q`: reassembly slots in the RX unit (R6). -/
abbrev slots : Nat := 8
/-- `SLOT_CAP`: bytes in one slot buffer (R6). -/
abbrev slotCap : Nat := 256
/-- `TX_CAP`: bytes in the TX scratch buffer (R6). -/
abbrev txCap : Nat := 64
/-- `FRAME_MAX`: most data bytes in one frame (R6). -/
abbrev frameMax : Nat := 8
/-- `SINGLE_MAX`: longest body that goes in a single frame (R6). -/
abbrev singleMax : Nat := 7
/-- `FIRST_BODY`: body bytes carried by the first frame of a multi-frame transfer (R6). -/
abbrev firstBody : Nat := 5
/-- `CONT_BODY`: body bytes carried by a middle frame (R6). -/
abbrev contBody : Nat := 7
/-- `OPEN_MIN`: least data length of a frame that may open a multi-frame transfer (R6). -/
abbrev openMin : Nat := 4
/-- `MT_LOG`: message_type of the reserved log channel (R6, 30_encoding.md R92). -/
abbrev mtLog : BitVec 8 := 255
/-- What a byte of a state buffer holds that nothing has written since reset. DESIGN CHOICE (log 7): 10_state.md R38 leaves
it unspecified. -/
abbrev unwritten : Byte := 0
/-- Longest byte-sequence operand of `CRC16` and `DECODE` (43_crc16.md R232, 42_message_codecs.md R155). -/
abbrev operandMax : Nat := 256

/-- The open parameters of 00_scope.md R7, which "the model takes ... as an argument (a configuration
field)". The machine's State carries them, so that every claim about all states is a claim about all
parameter values; no operation writes them (log 5).
DESIGN CHOICE (log 5): `P_ACCEPT_LEN` is held as the finite list of (message_type, length) pairs on which it
departs from R7's default. -/
structure Params where
  /-- `P_SHORT_OPEN_EXPECTED_TOGGLE` (45_rx_decoder.md R271, decision D8). -/
  shortOpenExpectedToggle : Bool
  /-- The pairs on which `P_ACCEPT_LEN` departs from its default (42_message_codecs.md R156, decision D9). -/
  acceptLenDepartures : List (BitVec 8 × Nat)
  /-- `P_PREUNIX_PRIORITY` (41_ext_id.md R142, decision D15). -/
  preUnixPriority : BitVec 3
deriving DecidableEq, Repr

/-- The defaults of 00_scope.md R7. -/
def defaults : Params where
  shortOpenExpectedToggle := true
  acceptLenDepartures := []
  preUnixPriority := 1

end Sys2Proof.Config
end

