-- ==== Sys2Proof/Syntax.lean ====
section
/-! DEFINITION. The syntax of CANCODEC: message classes, the fields of the classes whose layout the spec gives,
the operations (one constructor of `Instr` per row of spec/opcode_table.json, with its operands typed as its
rule gives them), and the host's requests (30_encoding.md R99). -/

namespace Sys2Proof

/-- The 21 message classes of the catalogue (30_encoding.md R91). -/
inductive MsgClass where
  | reset
  | unixTime
  | preUnixTime
  | dataTransfer
  | nodeStatus
  | ampStatus
  | payloadEpsStatus
  | vlStatus
  | ampControl
  | payloadEpsOutputOverwrite
  | ack
  | ampOverwrite
  | ampResetOutput
  | airBrakesControl
  | baroMeasurement
  | imuMeasurement
  | brightnessMeasurement
  | rocketState
  | magMeasurement
  | ozysMeasurement
  | icarusStatus
deriving DecidableEq, Repr

/-- The two sub-records, which are never the body of a transfer (42_message_codecs.md section 3). -/
inductive SubRecord where
  | ampOutStatus
  | epsOutStatus
deriving DecidableEq, Repr

/-- The fields of `RESET` in wire order (42_message_codecs.md R160). -/
structure ResetFields where
  nodeId : BitVec 12
  resetAll : Bool
  intoBootloader : Bool
deriving DecidableEq, Repr

/-- The fields of `DATA_TRANSFER` in wire order (42_message_codecs.md R166). -/
structure DataTransferFields where
  data : Vector Byte 32
  dataLen : BitVec 8
  sequenceNumber : BitVec 8
  startOfTransfer : Bool
  endOfTransfer : Bool
  dataType : BitVec 2
  destinationNodeId : BitVec 12
deriving DecidableEq, Repr

/-- The fields of `NODE_STATUS` in wire order (42_message_codecs.md R168). -/
structure NodeStatusFields where
  uptimeS : BitVec 24
  health : BitVec 2
  mode : BitVec 2
  customStatusRaw : BitVec 11
deriving DecidableEq, Repr

/-- The fields of `VL_STATUS` in wire order (42_message_codecs.md R178). -/
structure VlStatusFields where
  flightStage : BitVec 8
  batteryMv : BitVec 16
deriving DecidableEq, Repr

/-- The fields of `AMP_CONTROL` in wire order (42_message_codecs.md R180). -/
structure AmpControlFields where
  enable1 : Bool
  enable2 : Bool
  enable3 : Bool
  enable4 : Bool
deriving DecidableEq, Repr

/-- The fields of `PAYLOAD_EPS_OUTPUT_OVERWRITE` in wire order (42_message_codecs.md R182). -/
structure PayloadEpsOutputOverwriteFields where
  out1 : BitVec 2
  out2 : BitVec 2
  out3 : BitVec 2
  nodeId : BitVec 12
deriving DecidableEq, Repr

/-- The fields of `ACK` in wire order (42_message_codecs.md R184). -/
structure AckFields where
  crc : BitVec 16
  nodeId : BitVec 12
deriving DecidableEq, Repr

/-- The fields of `AMP_OVERWRITE` in wire order (42_message_codecs.md R186). -/
structure AmpOverwriteFields where
  out1 : BitVec 2
  out2 : BitVec 2
  out3 : BitVec 2
  out4 : BitVec 2
deriving DecidableEq, Repr

/-- The fields of `AIR_BRAKES_CONTROL` in wire order (42_message_codecs.md R190). -/
structure AirBrakesControlFields where
  extensionRaw : BitVec 16
deriving DecidableEq, Repr

/-- The fields of `ROCKET_STATE` in wire order (42_message_codecs.md R198). -/
structure RocketStateFields where
  velocity1 : BitVec 32
  velocity2 : BitVec 32
  altitude : BitVec 32
  timestampUs : BitVec 56
  isCoasting : Bool
deriving DecidableEq, Repr

/-- The fields of `AMP_OUT_STATUS` in wire order (42_message_codecs.md R172). -/
structure AmpOutStatusFields where
  overwrote : Bool
  status : BitVec 2
deriving DecidableEq, Repr

/-- The fields of `EPS_OUT_STATUS` in wire order (42_message_codecs.md R176). -/
structure EpsOutStatusFields where
  currentMa : BitVec 13
  overwrote : Bool
  status : BitVec 2
deriving DecidableEq, Repr

/-- The bits of an identifier word that its class pattern leaves open (30_encoding.md R80): the reserved bits
31..29, which receivers ignore, and priority, node_type, node_id. -/
structure IdentFields where
  reserved : BitVec 3
  priority : BitVec 3
  nodeType : BitVec 6
  nodeId   : BitVec 12
deriving DecidableEq, Repr

/-- The operations. Rows of format CMD are the host's commands (30_encoding.md R99); rows of format TAIL and
ID29 are the arrival at the RX unit of a frame whose tail byte (R89) or identifier (R91, R92) has that pattern
(log 4). A `sel` that the rule ignores is no operand. -/
inductive Instr where
  | putU16 (B : Bytes) (i : Nat) (v : BitVec 16)
  | putU24 (B : Bytes) (i : Nat) (v : BitVec 24)
  | putU32 (B : Bytes) (i : Nat) (v : BitVec 32)
  | putU56 (B : Bytes) (i : Nat) (v : BitVec 56)
  | putU64 (B : Bytes) (i : Nat) (v : BitVec 64)
  | getU16 (B : Bytes) (i : Nat)
  | getU24 (B : Bytes) (i : Nat)
  | getU32 (B : Bytes) (i : Nat)
  | getU56 (B : Bytes) (i : Nat)
  | getU64 (B : Bytes) (i : Nat)
  | putBits (B : Bytes) (o w v : Nat)
  | getBits (B : Bytes) (o w : Nat)
  | makeId (priority messageType nodeType nodeId : BitVec 32)
  | splitId (id : BitVec 32)
  | wireId (sel : BitVec 8) (nodeType nodeId : BitVec 32)
  | crc16 (s : Bytes)
  | sizeOf (sel : BitVec 8)
  | decode (sel : BitVec 8) (B : Bytes)
  | txLoad (sel : BitVec 8) (body : Bytes) (nodeType : BitVec 6) (nodeId : BitVec 12)
  | txHasNext
  | txNext
  | rxReset
  | rxFrame (idIn : BitVec 32) (d : Bytes) (ts : BitVec 64)
  | packReset (v : ResetFields)
  | unpackReset (B : Bytes)
  | packUnixTime (body : Bytes)
  | unpackUnixTime (B : Bytes)
  | packPreUnixTime
  | unpackPreUnixTime (B : Bytes)
  | packDataTransfer (v : DataTransferFields)
  | unpackDataTransfer (B : Bytes)
  | packNodeStatus (v : NodeStatusFields)
  | unpackNodeStatus (B : Bytes)
  | packAmpStatus (body : Bytes)
  | unpackAmpStatus (B : Bytes)
  | packPayloadEpsStatus (body : Bytes)
  | unpackPayloadEpsStatus (B : Bytes)
  | packVlStatus (v : VlStatusFields)
  | unpackVlStatus (B : Bytes)
  | packAmpControl (v : AmpControlFields)
  | unpackAmpControl (B : Bytes)
  | packPayloadEpsOutputOverwrite (v : PayloadEpsOutputOverwriteFields)
  | unpackPayloadEpsOutputOverwrite (B : Bytes)
  | packAck (v : AckFields)
  | unpackAck (B : Bytes)
  | packAmpOverwrite (v : AmpOverwriteFields)
  | unpackAmpOverwrite (B : Bytes)
  | packAmpResetOutput (body : Bytes)
  | unpackAmpResetOutput (B : Bytes)
  | packAirBrakesControl (v : AirBrakesControlFields)
  | unpackAirBrakesControl (B : Bytes)
  | packBaroMeasurement (body : Bytes)
  | unpackBaroMeasurement (B : Bytes)
  | packImuMeasurement (body : Bytes)
  | unpackImuMeasurement (B : Bytes)
  | packBrightnessMeasurement (body : Bytes)
  | unpackBrightnessMeasurement (B : Bytes)
  | packRocketState (v : RocketStateFields)
  | unpackRocketState (B : Bytes)
  | packMagMeasurement (body : Bytes)
  | unpackMagMeasurement (B : Bytes)
  | packOzysMeasurement (body : Bytes)
  | unpackOzysMeasurement (B : Bytes)
  | packIcarusStatus (body : Bytes)
  | unpackIcarusStatus (B : Bytes)
  | packAmpOutStatus (v : AmpOutStatusFields)
  | unpackAmpOutStatus (B : Bytes)
  | packEpsOutStatus (v : EpsOutStatusFields)
  | unpackEpsOutStatus (B : Bytes)
  | frameSingle (reserved : BitVec 5) (idIn : BitVec 32) (body : Bytes) (ts : BitVec 64)
  | frameSingleBadtog (reserved : BitVec 5) (idIn : BitVec 32) (body : Bytes) (ts : BitVec 64)
  | frameFirst (reserved : BitVec 5) (idIn : BitVec 32) (body : Bytes) (ts : BitVec 64)
  | frameFirstBadtog (reserved : BitVec 5) (idIn : BitVec 32) (body : Bytes) (ts : BitVec 64)
  | frameMiddle (tog : Bool) (reserved : BitVec 5) (idIn : BitVec 32) (body : Bytes) (ts : BitVec 64)
  | frameLast (tog : Bool) (reserved : BitVec 5) (idIn : BitVec 32) (body : Bytes) (ts : BitVec 64)
  | idReset (x : IdentFields) (d : Bytes) (ts : BitVec 64)
  | idUnixTime (x : IdentFields) (d : Bytes) (ts : BitVec 64)
  | idPreUnixTime (x : IdentFields) (d : Bytes) (ts : BitVec 64)
  | idDataTransfer (x : IdentFields) (d : Bytes) (ts : BitVec 64)
  | idNodeStatus (x : IdentFields) (d : Bytes) (ts : BitVec 64)
  | idAmpStatus (x : IdentFields) (d : Bytes) (ts : BitVec 64)
  | idPayloadEpsStatus (x : IdentFields) (d : Bytes) (ts : BitVec 64)
  | idVlStatus (x : IdentFields) (d : Bytes) (ts : BitVec 64)
  | idAmpControl (x : IdentFields) (d : Bytes) (ts : BitVec 64)
  | idPayloadEpsOutputOverwrite (x : IdentFields) (d : Bytes) (ts : BitVec 64)
  | idAck (x : IdentFields) (d : Bytes) (ts : BitVec 64)
  | idAmpOverwrite (x : IdentFields) (d : Bytes) (ts : BitVec 64)
  | idAmpResetOutput (x : IdentFields) (d : Bytes) (ts : BitVec 64)
  | idAirBrakesControl (x : IdentFields) (d : Bytes) (ts : BitVec 64)
  | idBaroMeasurement (x : IdentFields) (d : Bytes) (ts : BitVec 64)
  | idImuMeasurement (x : IdentFields) (d : Bytes) (ts : BitVec 64)
  | idBrightnessMeasurement (x : IdentFields) (d : Bytes) (ts : BitVec 64)
  | idRocketState (x : IdentFields) (d : Bytes) (ts : BitVec 64)
  | idMagMeasurement (x : IdentFields) (d : Bytes) (ts : BitVec 64)
  | idOzysMeasurement (x : IdentFields) (d : Bytes) (ts : BitVec 64)
  | idIcarusStatus (x : IdentFields) (d : Bytes) (ts : BitVec 64)
  | idLogChannel (x : IdentFields) (d : Bytes) (ts : BitVec 64)
deriving DecidableEq, Repr

/-- The word that selects an operation, in one of the table's three formats: the 14-bit command word (R99), the
tail byte of a received frame (R89), the identifier word of a received frame (R80, R91). -/
inductive SelWord where
  | cmd (w : BitVec 14)
  | tail (b : Byte)
  | ident (id : BitVec 32)
deriving DecidableEq, Repr

/-- The operands that accompany a word (R99: "Operands and results accompany the command word as typed
bundles"): at most one byte sequence, and the unsigned operands in the order of the operation's rule (a Boolean
is 0 or 1, R153). DESIGN CHOICE (log 1). -/
structure Bundle where
  bytes : Bytes
  nums  : List Nat
deriving DecidableEq, Repr

/-- One request of the host: a word and its operand bundle (R99). -/
structure Request where
  word : SelWord
  ops  : Bundle
deriving DecidableEq, Repr

/-- Why a request is no operation. Each is a refusal at the port (R99, 00_scope.md R12); safe. -/
inductive DecodeError where
  /-- "A command word whose `cmd` is not in the table is refused" (R99). -/
  | unassignedCmd
  /-- `PACK` or `UNPACK` with a `sel` outside the catalogue, or a sub-record form with `sel` above 1 (R99). -/
  | noSuchClass
  /-- An identifier word whose message_type is neither in the catalogue nor 255: the table has no ID29 row for it
  (30_encoding.md R93; such frames reach the RX unit by `RX_FRAME` or by their tail byte). -/
  | noIdentRow
  /-- The bundle is not the one the operation takes: an operand missing or left over, or a value that does not
  fit its port (40_bit_io.md R120, 42_message_codecs.md R151, decision D21; log 12). -/
  | operandBundle
deriving DecidableEq, Repr

end Sys2Proof
end

