-- ==== Sys2Proof/Machine/Catalogue.lean ====
section
/-! DEFINITION. The message catalogue (30_encoding.md R91): class numbers, sizes, priorities, and the length test of
`DECODE` (42_message_codecs.md R156). -/

namespace Sys2Proof.Machine

/-- The `mt` column of R91. -/
def messageTypeOf : MsgClass → BitVec 8
  | .reset => 0
  | .unixTime => 7
  | .preUnixTime => 8
  | .dataTransfer => 16
  | .nodeStatus => 32
  | .ampStatus => 33
  | .payloadEpsStatus => 34
  | .vlStatus => 36
  | .ampControl => 64
  | .payloadEpsOutputOverwrite => 65
  | .ack => 66
  | .ampOverwrite => 67
  | .ampResetOutput => 68
  | .airBrakesControl => 69
  | .baroMeasurement => 128
  | .imuMeasurement => 129
  | .brightnessMeasurement => 130
  | .rocketState => 131
  | .magMeasurement => 132
  | .ozysMeasurement => 133
  | .icarusStatus => 160

/-- The class a message_type selects, none outside the catalogue (R91, R93). -/
def classOf (mt : BitVec 8) : Option MsgClass :=
  match mt.toNat with
  | 0 => some .reset
  | 7 => some .unixTime
  | 8 => some .preUnixTime
  | 16 => some .dataTransfer
  | 32 => some .nodeStatus
  | 33 => some .ampStatus
  | 34 => some .payloadEpsStatus
  | 36 => some .vlStatus
  | 64 => some .ampControl
  | 65 => some .payloadEpsOutputOverwrite
  | 66 => some .ack
  | 67 => some .ampOverwrite
  | 68 => some .ampResetOutput
  | 69 => some .airBrakesControl
  | 128 => some .baroMeasurement
  | 129 => some .imuMeasurement
  | 130 => some .brightnessMeasurement
  | 131 => some .rocketState
  | 132 => some .magMeasurement
  | 133 => some .ozysMeasurement
  | 160 => some .icarusStatus
  | _ => none

/-- The `SIZE_BYTES` column of R91. -/
def sizeBytes : MsgClass → Nat
  | .reset => 2
  | .unixTime => 7
  | .preUnixTime => 0
  | .dataTransfer => 36
  | .nodeStatus => 5
  | .ampStatus => 6
  | .payloadEpsStatus => 14
  | .vlStatus => 5
  | .ampControl => 1
  | .payloadEpsOutputOverwrite => 3
  | .ack => 4
  | .ampOverwrite => 1
  | .ampResetOutput => 1
  | .airBrakesControl => 6
  | .baroMeasurement => 13
  | .imuMeasurement => 31
  | .brightnessMeasurement => 11
  | .rocketState => 20
  | .magMeasurement => 19
  | .ozysMeasurement => 16
  | .icarusStatus => 6

/-- `tx_len <= 36 < 64` (44_tx_encoder.md R240). -/
theorem sizeBytes_lt (c : MsgClass) : sizeBytes c < 65 := by
  cases c <;> decide

/-- The sizes of the sub-records (42_message_codecs.md R172, R176). -/
def subRecordBytes : SubRecord → Nat
  | .ampOutStatus => 1
  | .epsOutStatus => 2

/-- The `p` column of R91; the priority of PRE_UNIX_TIME is the open parameter `P_PREUNIX_PRIORITY` (41_ext_id.md
R142, decision D15). -/
def priorityOf (p : Config.Params) : MsgClass → BitVec 3
  | .reset => 0
  | .unixTime => 1
  | .preUnixTime => p.preUnixPriority
  | .dataTransfer => 6
  | .nodeStatus => 5
  | .ampStatus => 5
  | .payloadEpsStatus => 5
  | .vlStatus => 2
  | .ampControl => 2
  | .payloadEpsOutputOverwrite => 2
  | .ack => 4
  | .ampOverwrite => 2
  | .ampResetOutput => 2
  | .airBrakesControl => 2
  | .baroMeasurement => 3
  | .imuMeasurement => 3
  | .brightnessMeasurement => 5
  | .rocketState => 3
  | .magMeasurement => 3
  | .ozysMeasurement => 5
  | .icarusStatus => 5

/-- `P_ACCEPT_LEN(mt, len)` (42_message_codecs.md R156, 00_scope.md R7): whatever the parameter, true at the exact
length of a class of the catalogue and false outside it; elsewhere the default `len >= SIZE_BYTES`, except on
the pairs the parameter names. -/
def acceptLen (p : Config.Params) (mt : BitVec 8) (len : Nat) : Bool :=
  match classOf mt with
  | none => false
  | some c =>
    if len = sizeBytes c then true
    else if p.acceptLenDepartures.contains (mt, len) then !(decide (sizeBytes c ≤ len))
    else decide (sizeBytes c ≤ len)

end Sys2Proof.Machine
end

