-- ==== Sys2Proof/Machine/Flags.lean ====
section
/-! DEFINITION. The flags: SOT, EOT and TOG of a tail byte (30_encoding.md R84), and the toggle the RX unit expects
(45_rx_decoder.md R271). The block has no condition code (10_state.md R33). -/

namespace Sys2Proof.Machine

/-- `SOT`, bit 7 of a tail byte (R84). -/
def tailSot (tail : Byte) : Bool := tail.getLsbD 7

/-- `EOT`, bit 6 of a tail byte (R84). -/
def tailEot (tail : Byte) : Bool := tail.getLsbD 6

/-- `TOG`, bit 5 of a tail byte (R84). -/
def tailTog (tail : Byte) : Bool := tail.getLsbD 5

/-- The tail byte `(SOT << 7) | (EOT << 6) | (TOG << 5)`, with the reserved bits 4..0 below (R84). -/
def tailByte (sot eot tog : Bool) (reserved : BitVec 5) : Byte :=
  (BitVec.ofBool sot ++ BitVec.ofBool eot ++ BitVec.ofBool tog ++ reserved : BitVec (1 + 1 + 1 + 5))

/-- The tail byte the TX unit writes: the reserved bits are zero (R84, R96). -/
def txTail (sot eot tog : Bool) : Byte := tailByte sot eot tog 0

/-- `EXPECTED_TOGGLE(len)` (45_rx_decoder.md R271): `((len - 5) / 7) mod 2 = 0` from 5 bytes on, and the open parameter
`P_SHORT_OPEN_EXPECTED_TOGGLE` below. -/
def expectedToggle (p : Config.Params) (len : Nat) : Bool :=
  if Config.firstBody ≤ len then (len - Config.firstBody) / Config.contBody % 2 == 0
  else p.shortOpenExpectedToggle

end Sys2Proof.Machine
end

