-- ==== Sys2Proof/WellFormed.lean ====
section
/-! DEFINITION. Which operations the host can present: operand values that fit their ports. Everything a rule
itself refuses (a short buffer, a wrong body length, a class outside the catalogue, n > 8) is well formed and is
refused by the operation's meaning. -/

namespace Sys2Proof

/-- Whether a value fits the value port of `PUT_BITS`: "exactly `w` bits" (40_bit_io.md R131, decision D21). For a
width outside 1..64, which the operation refuses, the port is taken as `min w 64` bits wide. -/
def putBitsValueFits (w v : Nat) : Bool := decide (v < 2 ^ min w 64)

/-- An operation whose operands fit the ports of its rule: `v: u_w` of `PUT_BITS` (R131), and the byte sequences of
length 0..256 of `CRC16` (43_crc16.md R232) and `DECODE` (42_message_codecs.md R155). -/
def Instr.wellFormed : Instr → Bool
  | .putU16 _ _ _ => true
  | .putU24 _ _ _ => true
  | .putU32 _ _ _ => true
  | .putU56 _ _ _ => true
  | .putU64 _ _ _ => true
  | .getU16 _ _ => true
  | .getU24 _ _ => true
  | .getU32 _ _ => true
  | .getU56 _ _ => true
  | .getU64 _ _ => true
  | .putBits _ _ w v => putBitsValueFits w v
  | .getBits _ _ _ => true
  | .makeId _ _ _ _ => true
  | .splitId _ => true
  | .wireId _ _ _ => true
  | .crc16 s => decide (s.length ≤ Config.operandMax)
  | .sizeOf _ => true
  | .decode _ B => decide (B.length ≤ Config.operandMax)
  | .txLoad _ _ _ _ => true
  | .txHasNext => true
  | .txNext => true
  | .rxReset => true
  | .rxFrame _ _ _ => true
  | .packReset _ => true
  | .unpackReset _ => true
  | .packUnixTime _ => true
  | .unpackUnixTime _ => true
  | .packPreUnixTime => true
  | .unpackPreUnixTime _ => true
  | .packDataTransfer _ => true
  | .unpackDataTransfer _ => true
  | .packNodeStatus _ => true
  | .unpackNodeStatus _ => true
  | .packAmpStatus _ => true
  | .unpackAmpStatus _ => true
  | .packPayloadEpsStatus _ => true
  | .unpackPayloadEpsStatus _ => true
  | .packVlStatus _ => true
  | .unpackVlStatus _ => true
  | .packAmpControl _ => true
  | .unpackAmpControl _ => true
  | .packPayloadEpsOutputOverwrite _ => true
  | .unpackPayloadEpsOutputOverwrite _ => true
  | .packAck _ => true
  | .unpackAck _ => true
  | .packAmpOverwrite _ => true
  | .unpackAmpOverwrite _ => true
  | .packAmpResetOutput _ => true
  | .unpackAmpResetOutput _ => true
  | .packAirBrakesControl _ => true
  | .unpackAirBrakesControl _ => true
  | .packBaroMeasurement _ => true
  | .unpackBaroMeasurement _ => true
  | .packImuMeasurement _ => true
  | .unpackImuMeasurement _ => true
  | .packBrightnessMeasurement _ => true
  | .unpackBrightnessMeasurement _ => true
  | .packRocketState _ => true
  | .unpackRocketState _ => true
  | .packMagMeasurement _ => true
  | .unpackMagMeasurement _ => true
  | .packOzysMeasurement _ => true
  | .unpackOzysMeasurement _ => true
  | .packIcarusStatus _ => true
  | .unpackIcarusStatus _ => true
  | .packAmpOutStatus _ => true
  | .unpackAmpOutStatus _ => true
  | .packEpsOutStatus _ => true
  | .unpackEpsOutStatus _ => true
  | .frameSingle _ _ _ _ => true
  | .frameSingleBadtog _ _ _ _ => true
  | .frameFirst _ _ _ _ => true
  | .frameFirstBadtog _ _ _ _ => true
  | .frameMiddle _ _ _ _ _ => true
  | .frameLast _ _ _ _ _ => true
  | .idReset _ _ _ => true
  | .idUnixTime _ _ _ => true
  | .idPreUnixTime _ _ _ => true
  | .idDataTransfer _ _ _ => true
  | .idNodeStatus _ _ _ => true
  | .idAmpStatus _ _ _ => true
  | .idPayloadEpsStatus _ _ _ => true
  | .idVlStatus _ _ _ => true
  | .idAmpControl _ _ _ => true
  | .idPayloadEpsOutputOverwrite _ _ _ => true
  | .idAck _ _ _ => true
  | .idAmpOverwrite _ _ _ => true
  | .idAmpResetOutput _ _ _ => true
  | .idAirBrakesControl _ _ _ => true
  | .idBaroMeasurement _ _ _ => true
  | .idImuMeasurement _ _ _ => true
  | .idBrightnessMeasurement _ _ _ => true
  | .idRocketState _ _ _ => true
  | .idMagMeasurement _ _ _ => true
  | .idOzysMeasurement _ _ _ => true
  | .idIcarusStatus _ _ _ => true
  | .idLogChannel _ _ _ => true

end Sys2Proof
end

