-- ==== Sys2Proof/Decode.lean ====
section
/-! DEFINITION. The decoder: from a request (a word and its operand bundle) to an operation, total, rejecting by name
(30_encoding.md R80, R89, R91, R92, R99); then the encoder, from the same tables; then the host's `decodeTableWord`. -/

namespace Sys2Proof

/-! ### The fields of a word -/

/-- `cmd` of a command word `{cmd[5:0], sel[7:0]}` (R99). -/
def cmdOf (w : BitVec 14) : BitVec 6 := w.extractLsb' 8 6

/-- `sel` of a command word (R99). -/
def selOf (w : BitVec 14) : BitVec 8 := w.extractLsb' 0 8

/-- The command word `{cmd, sel}` (R99). -/
def cmdWord (cmd : BitVec 6) (sel : BitVec 8) : BitVec 14 := cmd ++ sel

/-- The identifier word with a given message_type: reserved 31..29, priority 28..26, message_type 25..18,
node_type 17..12, node_id 11..0 (R80). -/
def identWord (mt : BitVec 8) (x : IdentFields) : BitVec 32 :=
  (x.reserved ++ x.priority ++ mt ++ x.nodeType ++ x.nodeId : BitVec (3 + 3 + 8 + 6 + 12))

/-- message_type of an identifier word: `(id >> 18) & 0xFF` (R81). -/
def identMessageType (id : BitVec 32) : BitVec 8 := id.extractLsb' 18 8

/-- The other fields of an identifier word (R80). -/
def identFields (id : BitVec 32) : IdentFields where
  reserved := id.extractLsb' 29 3
  priority := id.extractLsb' 26 3
  nodeType := id.extractLsb' 12 6
  nodeId := id.extractLsb' 0 12

/-! ### The operands of a bundle -/

/-- Operand number `k` of a bundle. -/
def Bundle.nat (b : Bundle) (k : Nat) : Nat := b.nums.getD k 0

/-- Operand number `k` on a port of `w` bits. -/
def Bundle.word (b : Bundle) (w k : Nat) : BitVec w := BitVec.ofNat w (b.nat k)

/-- Operand number `k` as a Boolean, 1 for true (42_message_codecs.md R153). -/
def Bundle.flag (b : Bundle) (k : Nat) : Bool := b.nat k == 1

/-- Whether the numbers of a bundle are as many as the ports and each fits its port; `none` is an index, an offset
or a width, which any number is. -/
def numsFit : List (Option Nat) → List Nat → Bool
  | [], [] => true
  | none :: ws, _ :: ns => numsFit ws ns
  | some w :: ws, n :: ns => decide (n < 2 ^ w) && numsFit ws ns
  | _, _ => false

/-- Whether a byte-sequence operand is admitted: none at all, up to a length, or of any length. -/
def bytesFit (most : Option Nat) (s : Bytes) : Bool :=
  match most with
  | none => true
  | some m => decide (s.length ≤ m)

/-- The operation, if the bundle is the one it takes: at most `most` bytes, and numbers on ports of the widths `ws`
(40_bit_io.md R120, 42_message_codecs.md R151, decision D21; log 12). -/
def accept (b : Bundle) (most : Option Nat) (ws : List (Option Nat)) (i : Instr) : Except DecodeError Instr :=
  if bytesFit most b.bytes && numsFit ws b.nums then .ok i else .error .operandBundle

/-- `PACK.DATA_TRANSFER` takes exactly 32 data bytes (42_message_codecs.md R166). -/
def acceptDataTransfer (b : Bundle) : Except DecodeError Instr :=
  if h : b.bytes.length = 32 then
    accept b none [some 8, some 8, some 1, some 1, some 2, some 12]
      (.packDataTransfer
        { data := ⟨b.bytes.toArray, by simpa using h⟩, dataLen := b.word 8 0, sequenceNumber := b.word 8 1,
          startOfTransfer := b.flag 2, endOfTransfer := b.flag 3, dataType := b.word 2 4,
          destinationNodeId := b.word 12 5 })
  else .error .operandBundle

/-! ### The decoder -/

/-- `PACK.<class>`: `cmd = 0x30`, the class in `sel` (R99). -/
def decodePack (sel : BitVec 8) (b : Bundle) : Except DecodeError Instr :=
  match sel.toNat with
  | 0 => accept b (some 0) [some 12, some 1, some 1]
      (.packReset { nodeId := b.word 12 0, resetAll := b.flag 1, intoBootloader := b.flag 2 })
  | 7 => accept b none [] (.packUnixTime b.bytes)
  | 8 => accept b (some 0) [] .packPreUnixTime
  | 16 => acceptDataTransfer b
  | 32 => accept b (some 0) [some 24, some 2, some 2, some 11]
      (.packNodeStatus { uptimeS := b.word 24 0, health := b.word 2 1, mode := b.word 2 2, customStatusRaw := b.word 11 3 })
  | 33 => accept b none [] (.packAmpStatus b.bytes)
  | 34 => accept b none [] (.packPayloadEpsStatus b.bytes)
  | 36 => accept b (some 0) [some 8, some 16]
      (.packVlStatus { flightStage := b.word 8 0, batteryMv := b.word 16 1 })
  | 64 => accept b (some 0) [some 1, some 1, some 1, some 1]
      (.packAmpControl { enable1 := b.flag 0, enable2 := b.flag 1, enable3 := b.flag 2, enable4 := b.flag 3 })
  | 65 => accept b (some 0) [some 2, some 2, some 2, some 12]
      (.packPayloadEpsOutputOverwrite { out1 := b.word 2 0, out2 := b.word 2 1, out3 := b.word 2 2, nodeId := b.word 12 3 })
  | 66 => accept b (some 0) [some 16, some 12]
      (.packAck { crc := b.word 16 0, nodeId := b.word 12 1 })
  | 67 => accept b (some 0) [some 2, some 2, some 2, some 2]
      (.packAmpOverwrite { out1 := b.word 2 0, out2 := b.word 2 1, out3 := b.word 2 2, out4 := b.word 2 3 })
  | 68 => accept b none [] (.packAmpResetOutput b.bytes)
  | 69 => accept b (some 0) [some 16]
      (.packAirBrakesControl { extensionRaw := b.word 16 0 })
  | 128 => accept b none [] (.packBaroMeasurement b.bytes)
  | 129 => accept b none [] (.packImuMeasurement b.bytes)
  | 130 => accept b none [] (.packBrightnessMeasurement b.bytes)
  | 131 => accept b (some 0) [some 32, some 32, some 32, some 56, some 1]
      (.packRocketState { velocity1 := b.word 32 0, velocity2 := b.word 32 1, altitude := b.word 32 2, timestampUs := b.word 56 3, isCoasting := b.flag 4 })
  | 132 => accept b none [] (.packMagMeasurement b.bytes)
  | 133 => accept b none [] (.packOzysMeasurement b.bytes)
  | 160 => accept b none [] (.packIcarusStatus b.bytes)
  | _ => .error .noSuchClass

/-- `UNPACK.<class>`: `cmd = 0x31`, the class in `sel` (R99). -/
def decodeUnpack (sel : BitVec 8) (b : Bundle) : Except DecodeError Instr :=
  match sel.toNat with
  | 0 => accept b none [] (.unpackReset b.bytes)
  | 7 => accept b none [] (.unpackUnixTime b.bytes)
  | 8 => accept b none [] (.unpackPreUnixTime b.bytes)
  | 16 => accept b none [] (.unpackDataTransfer b.bytes)
  | 32 => accept b none [] (.unpackNodeStatus b.bytes)
  | 33 => accept b none [] (.unpackAmpStatus b.bytes)
  | 34 => accept b none [] (.unpackPayloadEpsStatus b.bytes)
  | 36 => accept b none [] (.unpackVlStatus b.bytes)
  | 64 => accept b none [] (.unpackAmpControl b.bytes)
  | 65 => accept b none [] (.unpackPayloadEpsOutputOverwrite b.bytes)
  | 66 => accept b none [] (.unpackAck b.bytes)
  | 67 => accept b none [] (.unpackAmpOverwrite b.bytes)
  | 68 => accept b none [] (.unpackAmpResetOutput b.bytes)
  | 69 => accept b none [] (.unpackAirBrakesControl b.bytes)
  | 128 => accept b none [] (.unpackBaroMeasurement b.bytes)
  | 129 => accept b none [] (.unpackImuMeasurement b.bytes)
  | 130 => accept b none [] (.unpackBrightnessMeasurement b.bytes)
  | 131 => accept b none [] (.unpackRocketState b.bytes)
  | 132 => accept b none [] (.unpackMagMeasurement b.bytes)
  | 133 => accept b none [] (.unpackOzysMeasurement b.bytes)
  | 160 => accept b none [] (.unpackIcarusStatus b.bytes)
  | _ => .error .noSuchClass

/-- `PACK.<sub-record>`: `cmd = 0x32`, the sub-record in `sel` (R99). -/
def decodePackSub (sel : BitVec 8) (b : Bundle) : Except DecodeError Instr :=
  match sel.toNat with
  | 0 => accept b (some 0) [some 1, some 2]
      (.packAmpOutStatus { overwrote := b.flag 0, status := b.word 2 1 })
  | 1 => accept b (some 0) [some 13, some 1, some 2]
      (.packEpsOutStatus { currentMa := b.word 13 0, overwrote := b.flag 1, status := b.word 2 2 })
  | _ => .error .noSuchClass

/-- `UNPACK.<sub-record>`: `cmd = 0x33`, the sub-record in `sel` (R99). -/
def decodeUnpackSub (sel : BitVec 8) (b : Bundle) : Except DecodeError Instr :=
  match sel.toNat with
  | 0 => accept b none [] (.unpackAmpOutStatus b.bytes)
  | 1 => accept b none [] (.unpackEpsOutStatus b.bytes)
  | _ => .error .noSuchClass

/-- A command word and its bundle (the table of R99); `sel` is ignored where the table says so. -/
def decodeCmd (w : BitVec 14) (b : Bundle) : Except DecodeError Instr :=
  match (cmdOf w).toNat with
  | 0x01 => accept b none [none, some 16] (.putU16 b.bytes (b.nat 0) (b.word 16 1))
  | 0x02 => accept b none [none, some 24] (.putU24 b.bytes (b.nat 0) (b.word 24 1))
  | 0x03 => accept b none [none, some 32] (.putU32 b.bytes (b.nat 0) (b.word 32 1))
  | 0x04 => accept b none [none, some 56] (.putU56 b.bytes (b.nat 0) (b.word 56 1))
  | 0x05 => accept b none [none, some 64] (.putU64 b.bytes (b.nat 0) (b.word 64 1))
  | 0x06 => accept b none [none] (.getU16 b.bytes (b.nat 0))
  | 0x07 => accept b none [none] (.getU24 b.bytes (b.nat 0))
  | 0x08 => accept b none [none] (.getU32 b.bytes (b.nat 0))
  | 0x09 => accept b none [none] (.getU56 b.bytes (b.nat 0))
  | 0x0A => accept b none [none] (.getU64 b.bytes (b.nat 0))
  | 0x0B =>
    if putBitsValueFits (b.nat 1) (b.nat 2) then
      accept b none [none, none, none] (.putBits b.bytes (b.nat 0) (b.nat 1) (b.nat 2))
    else .error .operandBundle
  | 0x0C => accept b none [none, none] (.getBits b.bytes (b.nat 0) (b.nat 1))
  | 0x10 =>
    accept b (some 0) [some 32, some 32, some 32, some 32]
      (.makeId (b.word 32 0) (b.word 32 1) (b.word 32 2) (b.word 32 3))
  | 0x11 => accept b (some 0) [some 32] (.splitId (b.word 32 0))
  | 0x12 => accept b (some 0) [some 32, some 32] (.wireId (selOf w) (b.word 32 0) (b.word 32 1))
  | 0x18 => accept b (some Config.operandMax) [] (.crc16 b.bytes)
  | 0x19 => accept b (some 0) [] (.sizeOf (selOf w))
  | 0x1A => accept b (some Config.operandMax) [] (.decode (selOf w) b.bytes)
  | 0x20 => accept b none [some 6, some 12] (.txLoad (selOf w) b.bytes (b.word 6 0) (b.word 12 1))
  | 0x21 => accept b (some 0) [] .txHasNext
  | 0x22 => accept b (some 0) [] .txNext
  | 0x28 => accept b (some 0) [] .rxReset
  | 0x29 => accept b none [some 32, some 64] (.rxFrame (b.word 32 0) b.bytes (b.word 64 1))
  | 0x30 => decodePack (selOf w) b
  | 0x31 => decodeUnpack (selOf w) b
  | 0x32 => decodePackSub (selOf w) b
  | 0x33 => decodeUnpackSub (selOf w) b
  | _ => .error .unassignedCmd

/-- A frame by its tail byte: the six patterns on bits 7..5 (R89). The bundle holds the data bytes before the tail,
the identifier and the timestamp. -/
def decodeTail (t : Byte) (b : Bundle) : Except DecodeError Instr :=
  let reserved := t.extractLsb' 0 5
  let tog := Machine.tailTog t
  let id := b.word 32 0
  let ts := b.word 64 1
  accept b none [some 32, some 64] <|
    match Machine.tailSot t, Machine.tailEot t, tog with
    | true, true, false => .frameSingle reserved id b.bytes ts
    | true, true, true => .frameSingleBadtog reserved id b.bytes ts
    | true, false, false => .frameFirst reserved id b.bytes ts
    | true, false, true => .frameFirstBadtog reserved id b.bytes ts
    | false, false, _ => .frameMiddle tog reserved id b.bytes ts
    | false, true, _ => .frameLast tog reserved id b.bytes ts

/-- A frame by its identifier: the 21 classes of R91 and the log channel of R92. The bundle holds the data bytes and
the timestamp. -/
def decodeIdent (id : BitVec 32) (b : Bundle) : Except DecodeError Instr :=
  let x := identFields id
  let ts := b.word 64 0
  match (identMessageType id).toNat with
  | 0 => accept b none [some 64] (.idReset x b.bytes ts)
  | 7 => accept b none [some 64] (.idUnixTime x b.bytes ts)
  | 8 => accept b none [some 64] (.idPreUnixTime x b.bytes ts)
  | 16 => accept b none [some 64] (.idDataTransfer x b.bytes ts)
  | 32 => accept b none [some 64] (.idNodeStatus x b.bytes ts)
  | 33 => accept b none [some 64] (.idAmpStatus x b.bytes ts)
  | 34 => accept b none [some 64] (.idPayloadEpsStatus x b.bytes ts)
  | 36 => accept b none [some 64] (.idVlStatus x b.bytes ts)
  | 64 => accept b none [some 64] (.idAmpControl x b.bytes ts)
  | 65 => accept b none [some 64] (.idPayloadEpsOutputOverwrite x b.bytes ts)
  | 66 => accept b none [some 64] (.idAck x b.bytes ts)
  | 67 => accept b none [some 64] (.idAmpOverwrite x b.bytes ts)
  | 68 => accept b none [some 64] (.idAmpResetOutput x b.bytes ts)
  | 69 => accept b none [some 64] (.idAirBrakesControl x b.bytes ts)
  | 128 => accept b none [some 64] (.idBaroMeasurement x b.bytes ts)
  | 129 => accept b none [some 64] (.idImuMeasurement x b.bytes ts)
  | 130 => accept b none [some 64] (.idBrightnessMeasurement x b.bytes ts)
  | 131 => accept b none [some 64] (.idRocketState x b.bytes ts)
  | 132 => accept b none [some 64] (.idMagMeasurement x b.bytes ts)
  | 133 => accept b none [some 64] (.idOzysMeasurement x b.bytes ts)
  | 160 => accept b none [some 64] (.idIcarusStatus x b.bytes ts)
  | 255 => accept b none [some 64] (.idLogChannel x b.bytes ts)
  | _ => .error .noIdentRow

/-- The decoder: total on every request. -/
def decode (r : Request) : Except DecodeError Instr :=
  match r.word with
  | .cmd w => decodeCmd w r.ops
  | .tail t => decodeTail t r.ops
  | .ident id => decodeIdent id r.ops

/-! ### The encoder -/

/-- A command with its operands. -/
def cmdRequest (cmd : BitVec 6) (sel : BitVec 8) (bytes : Bytes) (nums : List Nat) : Request where
  word := .cmd (cmdWord cmd sel)
  ops := { bytes := bytes, nums := nums }

/-- A frame by its tail byte. -/
def tailRequest (sot eot tog : Bool) (reserved : BitVec 5) (id : BitVec 32) (body : Bytes) (ts : BitVec 64) :
    Request where
  word := .tail (Machine.tailByte sot eot tog reserved)
  ops := { bytes := body, nums := [id.toNat, ts.toNat] }

/-- A frame by its identifier. -/
def identRequest (mt : BitVec 8) (x : IdentFields) (d : Bytes) (ts : BitVec 64) : Request where
  word := .ident (identWord mt x)
  ops := { bytes := d, nums := [ts.toNat] }

/-- The request of an operation, from the tables of R89, R91 and R99; an ignored `sel` is written 0. -/
def encode : Instr → Request
  | .putU16 B i v => cmdRequest 0x01 0 B [i, v.toNat]
  | .putU24 B i v => cmdRequest 0x02 0 B [i, v.toNat]
  | .putU32 B i v => cmdRequest 0x03 0 B [i, v.toNat]
  | .putU56 B i v => cmdRequest 0x04 0 B [i, v.toNat]
  | .putU64 B i v => cmdRequest 0x05 0 B [i, v.toNat]
  | .getU16 B i => cmdRequest 0x06 0 B [i]
  | .getU24 B i => cmdRequest 0x07 0 B [i]
  | .getU32 B i => cmdRequest 0x08 0 B [i]
  | .getU56 B i => cmdRequest 0x09 0 B [i]
  | .getU64 B i => cmdRequest 0x0A 0 B [i]
  | .putBits B o w v => cmdRequest 0x0B 0 B [o, w, v]
  | .getBits B o w => cmdRequest 0x0C 0 B [o, w]
  | .makeId p mt nt ni => cmdRequest 0x10 0 [] [p.toNat, mt.toNat, nt.toNat, ni.toNat]
  | .splitId id => cmdRequest 0x11 0 [] [id.toNat]
  | .wireId sel nt ni => cmdRequest 0x12 sel [] [nt.toNat, ni.toNat]
  | .crc16 s => cmdRequest 0x18 0 s []
  | .sizeOf sel => cmdRequest 0x19 sel [] []
  | .decode sel B => cmdRequest 0x1A sel B []
  | .txLoad sel body nt ni => cmdRequest 0x20 sel body [nt.toNat, ni.toNat]
  | .txHasNext => cmdRequest 0x21 0 [] []
  | .txNext => cmdRequest 0x22 0 [] []
  | .rxReset => cmdRequest 0x28 0 [] []
  | .rxFrame id d ts => cmdRequest 0x29 0 d [id.toNat, ts.toNat]
  | .packReset v => cmdRequest 0x30 0 [] [v.nodeId.toNat, v.resetAll.toNat, v.intoBootloader.toNat]
  | .unpackReset B => cmdRequest 0x31 0 B []
  | .packUnixTime body => cmdRequest 0x30 7 body []
  | .unpackUnixTime B => cmdRequest 0x31 7 B []
  | .packPreUnixTime => cmdRequest 0x30 8 [] []
  | .unpackPreUnixTime B => cmdRequest 0x31 8 B []
  | .packDataTransfer v => cmdRequest 0x30 16 v.data.toList
      [v.dataLen.toNat, v.sequenceNumber.toNat, v.startOfTransfer.toNat, v.endOfTransfer.toNat, v.dataType.toNat, v.destinationNodeId.toNat]
  | .unpackDataTransfer B => cmdRequest 0x31 16 B []
  | .packNodeStatus v => cmdRequest 0x30 32 []
      [v.uptimeS.toNat, v.health.toNat, v.mode.toNat, v.customStatusRaw.toNat]
  | .unpackNodeStatus B => cmdRequest 0x31 32 B []
  | .packAmpStatus body => cmdRequest 0x30 33 body []
  | .unpackAmpStatus B => cmdRequest 0x31 33 B []
  | .packPayloadEpsStatus body => cmdRequest 0x30 34 body []
  | .unpackPayloadEpsStatus B => cmdRequest 0x31 34 B []
  | .packVlStatus v => cmdRequest 0x30 36 [] [v.flightStage.toNat, v.batteryMv.toNat]
  | .unpackVlStatus B => cmdRequest 0x31 36 B []
  | .packAmpControl v => cmdRequest 0x30 64 [] [v.enable1.toNat, v.enable2.toNat, v.enable3.toNat, v.enable4.toNat]
  | .unpackAmpControl B => cmdRequest 0x31 64 B []
  | .packPayloadEpsOutputOverwrite v => cmdRequest 0x30 65 []
      [v.out1.toNat, v.out2.toNat, v.out3.toNat, v.nodeId.toNat]
  | .unpackPayloadEpsOutputOverwrite B => cmdRequest 0x31 65 B []
  | .packAck v => cmdRequest 0x30 66 [] [v.crc.toNat, v.nodeId.toNat]
  | .unpackAck B => cmdRequest 0x31 66 B []
  | .packAmpOverwrite v => cmdRequest 0x30 67 [] [v.out1.toNat, v.out2.toNat, v.out3.toNat, v.out4.toNat]
  | .unpackAmpOverwrite B => cmdRequest 0x31 67 B []
  | .packAmpResetOutput body => cmdRequest 0x30 68 body []
  | .unpackAmpResetOutput B => cmdRequest 0x31 68 B []
  | .packAirBrakesControl v => cmdRequest 0x30 69 [] [v.extensionRaw.toNat]
  | .unpackAirBrakesControl B => cmdRequest 0x31 69 B []
  | .packBaroMeasurement body => cmdRequest 0x30 128 body []
  | .unpackBaroMeasurement B => cmdRequest 0x31 128 B []
  | .packImuMeasurement body => cmdRequest 0x30 129 body []
  | .unpackImuMeasurement B => cmdRequest 0x31 129 B []
  | .packBrightnessMeasurement body => cmdRequest 0x30 130 body []
  | .unpackBrightnessMeasurement B => cmdRequest 0x31 130 B []
  | .packRocketState v => cmdRequest 0x30 131 []
      [v.velocity1.toNat, v.velocity2.toNat, v.altitude.toNat, v.timestampUs.toNat, v.isCoasting.toNat]
  | .unpackRocketState B => cmdRequest 0x31 131 B []
  | .packMagMeasurement body => cmdRequest 0x30 132 body []
  | .unpackMagMeasurement B => cmdRequest 0x31 132 B []
  | .packOzysMeasurement body => cmdRequest 0x30 133 body []
  | .unpackOzysMeasurement B => cmdRequest 0x31 133 B []
  | .packIcarusStatus body => cmdRequest 0x30 160 body []
  | .unpackIcarusStatus B => cmdRequest 0x31 160 B []
  | .packAmpOutStatus v => cmdRequest 0x32 0 [] [v.overwrote.toNat, v.status.toNat]
  | .unpackAmpOutStatus B => cmdRequest 0x33 0 B []
  | .packEpsOutStatus v => cmdRequest 0x32 1 [] [v.currentMa.toNat, v.overwrote.toNat, v.status.toNat]
  | .unpackEpsOutStatus B => cmdRequest 0x33 1 B []
  | .frameSingle r id body ts => tailRequest true true false r id body ts
  | .frameSingleBadtog r id body ts => tailRequest true true true r id body ts
  | .frameFirst r id body ts => tailRequest true false false r id body ts
  | .frameFirstBadtog r id body ts => tailRequest true false true r id body ts
  | .frameMiddle tog r id body ts => tailRequest false false tog r id body ts
  | .frameLast tog r id body ts => tailRequest false true tog r id body ts
  | .idReset x d ts => identRequest 0 x d ts
  | .idUnixTime x d ts => identRequest 7 x d ts
  | .idPreUnixTime x d ts => identRequest 8 x d ts
  | .idDataTransfer x d ts => identRequest 16 x d ts
  | .idNodeStatus x d ts => identRequest 32 x d ts
  | .idAmpStatus x d ts => identRequest 33 x d ts
  | .idPayloadEpsStatus x d ts => identRequest 34 x d ts
  | .idVlStatus x d ts => identRequest 36 x d ts
  | .idAmpControl x d ts => identRequest 64 x d ts
  | .idPayloadEpsOutputOverwrite x d ts => identRequest 65 x d ts
  | .idAck x d ts => identRequest 66 x d ts
  | .idAmpOverwrite x d ts => identRequest 67 x d ts
  | .idAmpResetOutput x d ts => identRequest 68 x d ts
  | .idAirBrakesControl x d ts => identRequest 69 x d ts
  | .idBaroMeasurement x d ts => identRequest 128 x d ts
  | .idImuMeasurement x d ts => identRequest 129 x d ts
  | .idBrightnessMeasurement x d ts => identRequest 130 x d ts
  | .idRocketState x d ts => identRequest 131 x d ts
  | .idMagMeasurement x d ts => identRequest 132 x d ts
  | .idOzysMeasurement x d ts => identRequest 133 x d ts
  | .idIcarusStatus x d ts => identRequest 160 x d ts
  | .idLogChannel x d ts => identRequest 255 x d ts

/-! ### The table's words -/

/-- `k` zero bytes. -/
def zeroBytes (k : Nat) : Bytes := List.replicate k 0

/-- The `SIZE_BYTES` of the class a `sel` names, 0 outside the catalogue. -/
def selSize (sel : BitVec 8) : Nat :=
  match Machine.classOf sel with
  | none => 0
  | some c => Machine.sizeBytes c

/-- The operands with which the host's word is presented: zeros, in the bundle the operation takes, byte sequences just
long enough; the width of `PUT_BITS` and `GET_BITS` is 1, the least the spec admits. DESIGN CHOICE (log 3): the
table gives a command word and no bits for its operands. -/
def sampleOperands : SelWord → Bundle
  | .tail _ => { bytes := [], nums := [0, 0] }
  | .ident _ => { bytes := [], nums := [0] }
  | .cmd w =>
    let size := selSize (selOf w)
    match (cmdOf w).toNat with
    | 0x01 => { bytes := zeroBytes 2, nums := [0, 0] }
    | 0x02 => { bytes := zeroBytes 3, nums := [0, 0] }
    | 0x03 => { bytes := zeroBytes 4, nums := [0, 0] }
    | 0x04 => { bytes := zeroBytes 7, nums := [0, 0] }
    | 0x05 => { bytes := zeroBytes 8, nums := [0, 0] }
    | 0x06 => { bytes := zeroBytes 2, nums := [0] }
    | 0x07 => { bytes := zeroBytes 3, nums := [0] }
    | 0x08 => { bytes := zeroBytes 4, nums := [0] }
    | 0x09 => { bytes := zeroBytes 7, nums := [0] }
    | 0x0A => { bytes := zeroBytes 8, nums := [0] }
    | 0x0B => { bytes := zeroBytes 1, nums := [0, 1, 0] }
    | 0x0C => { bytes := zeroBytes 1, nums := [0, 1] }
    | 0x10 => { bytes := [], nums := [0, 0, 0, 0] }
    | 0x11 => { bytes := [], nums := [0] }
    | 0x12 => { bytes := [], nums := [0, 0] }
    | 0x20 => { bytes := zeroBytes size, nums := [0, 0] }
    | 0x29 => { bytes := [], nums := [0, 0] }
    | 0x30 =>
      match (selOf w).toNat with
      | 0 => { bytes := [], nums := [0, 0, 0] }
      | 16 => { bytes := zeroBytes 32, nums := [0, 0, 0, 0, 0, 0] }
      | 32 => { bytes := [], nums := [0, 0, 0, 0] }
      | 36 => { bytes := [], nums := [0, 0] }
      | 64 => { bytes := [], nums := [0, 0, 0, 0] }
      | 65 => { bytes := [], nums := [0, 0, 0, 0] }
      | 66 => { bytes := [], nums := [0, 0] }
      | 67 => { bytes := [], nums := [0, 0, 0, 0] }
      | 69 => { bytes := [], nums := [0] }
      | 131 => { bytes := [], nums := [0, 0, 0, 0, 0] }
      | _ => { bytes := zeroBytes size, nums := [] }
    | 0x31 => { bytes := zeroBytes size, nums := [] }
    | 0x32 =>
      match (selOf w).toNat with
      | 0 => { bytes := [], nums := [0, 0] }
      | _ => { bytes := [], nums := [0, 0, 0] }
    | 0x33 => { bytes := zeroBytes 2, nums := [] }
    | _ => { bytes := [], nums := [] }

/-- The word of a row of spec/opcode_table.json, whose format its size tells: TAIL 8 bits, CMD 14 bits in two bytes,
ID29 32 bits (log 3). -/
def tableWord (nbits w : Nat) : SelWord :=
  if nbits ≤ 8 then .tail (BitVec.ofNat 8 w)
  else if nbits ≤ 16 then .cmd (BitVec.ofNat 14 w)
  else .ident (BitVec.ofNat 32 w)

/-- The request the host's word stands for. -/
def tableRequest (nbits w : Nat) : Request where
  word := tableWord nbits w
  ops := sampleOperands (tableWord nbits w)

/-- The instruction the decoder reads from a word of the opcode table. -/
def decodeTableWord (nbits w : Nat) : Option Instr :=
  match decode (tableRequest nbits w) with
  | .ok i => some i
  | .error _ => none

end Sys2Proof
end

