-- ==== Sys2Proof/Machine/State.lean ====
section
/-! DEFINITION. The state of the block as plain data (10_state.md), the reasons a step can stop, and the state after
reset (10_state.md R38, 70_reset_and_hazards.md R330). -/

namespace Sys2Proof.Machine

/-- One byte buffer of `size` bytes, an address space of its own with the addresses 0 to `size - 1` (20_memory.md R50).
Every byte holds a value: that of its cell, or `Config.unwritten` where no cell is listed (log 7). In canonical form the
addresses rise strictly, lie below `size`, and no cell holds `Config.unwritten`. -/
structure Memory (size : Nat) where
  cells : List Host.Cell
deriving DecidableEq, Repr

/-- A buffer nothing has written: every byte `Config.unwritten` (log 7). -/
def Memory.atReset (size : Nat) : Memory size := ⟨[]⟩

/-- The TX unit (10_state.md R21). The ranges of `tx_len` and `tx_offset` are the table's 0..64 (7 bits; log 9). -/
structure TxUnit where
  /-- `tx_id`, 29 bits. -/
  id     : BitVec 29
  /-- `tx_buf`, 64 bytes (R22). -/
  buf    : Memory Config.txCap
  /-- `tx_len`. -/
  len    : Fin 65
  /-- `tx_crc`, 16 bits. -/
  crc    : BitVec 16
  /-- `tx_offset`. -/
  offset : Fin 65
  /-- `tx_toggle`. -/
  toggle : Bool
deriving DecidableEq, Repr

/-- One reassembly slot (10_state.md R24). The range of `len` is the table's 0..256 (9 bits; log 9). -/
structure Slot where
  /-- `slot[k].occ`: whether the slot holds a transfer in progress (R25). -/
  occ : Bool
  /-- `slot[k].id`, 29 bits (R26). -/
  id  : BitVec 29
  /-- `slot[k].ts`, 64 bits (R27). -/
  ts  : BitVec 64
  /-- `slot[k].crc`, 16 bits (R28). -/
  crc : BitVec 16
  /-- `slot[k].buf`, 256 bytes (R29). -/
  buf : Memory Config.slotCap
  /-- `slot[k].len` (R29). -/
  len : Fin 257
deriving DecidableEq, Repr

/-- The RX unit: `Q = 8` slots (10_state.md R24). -/
abbrev RxUnit := Vector Slot 8

/-- A message as `DECODE` delivers it: `(mt, body)` (42_message_codecs.md R155, decision D10). -/
structure Message where
  mt   : BitVec 8
  body : Bytes
deriving DecidableEq, Repr

/-- `ReceivedMessage = (id, crc, decoded_union)` (45_rx_decoder.md R277). -/
structure ReceivedMessage where
  id  : BitVec 29
  crc : BitVec 16
  msg : Message
deriving DecidableEq, Repr

/-- The result bundle of an operation (30_encoding.md R99, 00_scope.md R12), one constructor per shape. -/
inductive Result where
  /-- No result: before the first operation (log 2), and of `TX_LOAD` and `RX_RESET`. -/
  | nothing
  /-- A byte sequence: `PUT_*`, `PACK.*`, and `UNPACK` of a class with no given layout. -/
  | bytes (b : Bytes)
  | u16 (v : BitVec 16)
  | u24 (v : BitVec 24)
  | u32 (v : BitVec 32)
  | u56 (v : BitVec 56)
  | u64 (v : BitVec 64)
  /-- `GET_BITS`: a value of `w` bits. -/
  | bits (w v : Nat)
  /-- `SPLIT_ID`. -/
  | idFields (priority : BitVec 3) (messageType : BitVec 8) (nodeType : BitVec 6) (nodeId : BitVec 12)
  /-- `SIZE_OF`. -/
  | size (n : Option Nat)
  /-- `DECODE`. -/
  | decoded (m : Option Message)
  /-- `TX_HAS_NEXT`. -/
  | hasNext (b : Bool)
  /-- `TX_NEXT`: a frame `(id, n, d)` with `n` the length of `d` (30_encoding.md R83, decision D30). -/
  | frame (id : BitVec 29) (d : Bytes)
  /-- `RX_FRAME`. -/
  | received (m : Option ReceivedMessage)
  | reset (v : ResetFields)
  /-- `UNPACK.PRE_UNIX_TIME`: the value with no fields (42_message_codecs.md R165). -/
  | preUnixTime
  | dataTransfer (v : DataTransferFields)
  | nodeStatus (v : NodeStatusFields)
  | vlStatus (v : VlStatusFields)
  | ampControl (v : AmpControlFields)
  | payloadEpsOutputOverwrite (v : PayloadEpsOutputOverwriteFields)
  | ack (v : AckFields)
  | ampOverwrite (v : AmpOverwriteFields)
  | airBrakesControl (v : AirBrakesControlFields)
  | rocketState (v : RocketStateFields)
  | ampOutStatus (v : AmpOutStatusFields)
  | epsOutStatus (v : EpsOutStatusFields)
deriving DecidableEq, Repr

/-- The reasons a step can stop with a fault: none. "Nothing in the block is `stuck` or `fault`: every accepted request
completes [...], and no request raises a fault" (93_implementation_defined.md). -/
inductive Fault : Type
deriving DecidableEq, Repr

/-- The requests the spec refuses (00_scope.md R12, 60_exceptions.md R309). Each is safe: no claim can be made about
a run that contains one. -/
inductive Refusal where
  /-- An instruction with no meaning yet; raised by `exec` only. Safe. -/
  | notModelled (mnemonic : String)
  /-- A request that is no operation (30_encoding.md R99); raised by `step`. Safe. -/
  | request (e : DecodeError)
  /-- A bit I/O operation reaching outside its operand buffer (20_memory.md R61, 40_bit_io.md R120). Safe. -/
  | outsideBuffer
  /-- `PUT_BITS` or `GET_BITS` with a width outside 1..64 (40_bit_io.md R131, R132). Safe. -/
  | badWidth
  /-- `WIRE_ID` or `TX_LOAD` of a class outside the catalogue (41_ext_id.md R142, 44_tx_encoder.md R240). Safe. -/
  | unknownClass
  /-- `TX_LOAD`, or `PACK` of an opaque class, with a body that is not `SIZE_BYTES` long (44_tx_encoder.md R240,
  42_message_codecs.md R162 and its like). Safe. -/
  | badBodyLength
  /-- `UNPACK` of a body shorter than `SIZE_BYTES` (42_message_codecs.md R152). Safe. -/
  | bodyTooShort
  /-- `TX_NEXT` when `has_next` is false (44_tx_encoder.md R250). Safe. -/
  | nothingToSend
  /-- `RX_FRAME` with more than 8 data bytes (45_rx_decoder.md R261). Safe. -/
  | frameTooLong
deriving DecidableEq, Repr

/-- The machine: the TX unit and the RX unit (10_state.md R20), the open parameters (00_scope.md R7, log 5), and the
command port (30_encoding.md R99): the host's requests not yet taken, in their total order (20_memory.md R66;
log 1), and the result of the last operation (log 2). -/
structure State where
  tx       : TxUnit
  rx       : RxUnit
  params   : Config.Params
  requests : List Request
  result   : Result
deriving DecidableEq, Repr

/-- The outcome of a step or of a meaning. -/
abbrev Outcome := Host.Outcome State Fault Refusal

/-- The TX unit after reset (10_state.md R38). DESIGN CHOICE (log 6): `tx_id` and `tx_crc`, "unspecified" there, are
zero, and so is every byte of `tx_buf` (log 7). -/
def TxUnit.atReset : TxUnit where
  id := 0
  buf := Memory.atReset Config.txCap
  len := 0
  crc := 0
  offset := 0
  toggle := false

/-- A slot after reset (10_state.md R38): empty. DESIGN CHOICE (log 8): `id`, `ts`, `crc` and `len`, "unspecified" there,
are zero, and so is every byte of `buf` (log 7). -/
def Slot.atReset : Slot where
  occ := false
  id := 0
  ts := 0
  crc := 0
  buf := Memory.atReset Config.slotCap
  len := 0

/-- The RX unit after reset: every slot empty (10_state.md R38). -/
def RxUnit.atReset : RxUnit := Vector.replicate 8 Slot.atReset

/-- The machine right after reset (10_state.md R38, 70_reset_and_hazards.md R330), with the parameters at the defaults
of 00_scope.md R7, no request presented and no result delivered. -/
def State.reset : State where
  tx := TxUnit.atReset
  rx := RxUnit.atReset
  params := Config.defaults
  requests := []
  result := .nothing

end Sys2Proof.Machine
end

