-- ==== Sys2Proof/Machine/Ops.lean ====
section
/-! DEFINITION. The named operations over buffers, slots and the result port. The block has no exception to take
(60_exceptions.md R313): a rule ends in a result, a `none` among them, or is refused (00_scope.md R11, R12), and
`State.deliver` is the one way a result leaves. -/

namespace Sys2Proof.Machine

/-! ### The parts of the state, one at a time -/

/-- The state with another TX unit. -/
def State.setTx (s : State) (t : TxUnit) : State := { s with tx := t }

/-- The state with another RX unit. -/
def State.setRx (s : State) (rx : RxUnit) : State := { s with rx := rx }

/-- The state with another result on the port. -/
def State.setResult (s : State) (r : Result) : State := { s with result := r }

/-- The state with other requests waiting. -/
def State.setRequests (s : State) (rs : List Request) : State := { s with requests := rs }

/-! ### Results -/

/-- Ends an operation with a result, every other part of the state as it stands (00_scope.md R12). -/
def State.deliver (s : State) (r : Result) : Outcome := .next (s.setResult r)

/-- Ends an operation of the RX unit with its slots and its answer. -/
def State.deliverRx (s : State) (rx : RxUnit) (m : Option ReceivedMessage) : Outcome :=
  .next ((s.setRx rx).setResult (.received m))

/-- Ends an operation of the TX unit with its registers and its answer. -/
def State.deliverTx (s : State) (t : TxUnit) (r : Result) : Outcome := .next ((s.setTx t).setResult r)

/-! ### The byte buffers of the state (20_memory.md R50) -/

/-- The byte that a list of cells gives an address. -/
def readCells (a : Nat) : List Host.Cell → Byte
  | [] => Config.unwritten
  | c :: rest => if a = c.1 then c.2 else readCells a rest

/-- `buf[a]`: every address has a byte (log 7). -/
def Memory.read {size : Nat} (m : Memory size) (a : Nat) : Byte := readCells a m.cells

/-- A cell put in front of the first cell with a larger address. -/
def insertCell (c : Host.Cell) : List Host.Cell → List Host.Cell
  | [] => [c]
  | x :: rest => if c.1 < x.1 then c :: x :: rest else x :: insertCell c rest

/-- `buf[a] <- b`. The cell of `a` is replaced, or taken out where `b` is what an unlisted address holds. -/
def Memory.write {size : Nat} (m : Memory size) (a : Nat) (b : Byte) : Memory size :=
  let others := m.cells.filter fun c => c.1 != a
  ⟨if b = Config.unwritten then others else insertCell (a, b) others⟩

/-- `BufRead(B, i, n)` (00_scope.md R11): the `n` bytes `buf[i..i+n]`. -/
def Memory.readBytes {size : Nat} (m : Memory size) (i n : Nat) : Bytes := (List.range n).map fun k => m.read (i + k)

/-- `BufWrite(B, i, s)` (00_scope.md R11): stores the bytes of `s` from address `i` on. No rule stores past the end
(20_memory.md R51, R52). -/
def Memory.writeBytes {size : Nat} (m : Memory size) (i : Nat) : Bytes → Memory size
  | [] => m
  | b :: bs => Memory.writeBytes (m.write i b) (i + 1) bs

/-- The canonical form of cells from address `lo` on, in a buffer of `size` bytes. -/
def wfCells (size lo : Nat) : List Host.Cell → Bool
  | [] => true
  | c :: rest => decide (lo ≤ c.1) && decide (c.1 < size) && decide (c.2 ≠ Config.unwritten) && wfCells size (c.1 + 1) rest

/-- The canonical form of a buffer: addresses strictly rising and inside the buffer, no cell that says what an unlisted
address says. -/
def Memory.wf {size : Nat} (m : Memory size) : Bool := wfCells size 0 m.cells

/-! ### Operand buffers: bytes (40_bit_io.md R120) -/

/-- The `n` bytes of a value, most significant first: byte `k` is `v[8n-1-8k : 8n-8-8k]` (40_bit_io.md R120). -/
def beBytes (n v : Nat) : Bytes := (List.range n).map fun k => BitVec.ofNat 8 (v >>> (8 * (n - 1 - k)))

/-- The value of a byte sequence, most significant byte first: `v <- (v << 8) | B[i+k]` (40_bit_io.md R129). -/
def beValue (s : Bytes) : Nat := s.foldl (fun v b => v <<< 8 ||| b.toNat) 0

/-- The buffer with the bytes of `s` at `B[i..i+len(s)]` and every other byte as it was: what `PUT_Un` writes (40_bit_io.md
R120, R133). -/
def spliceBytes (B : Bytes) (i : Nat) (s : Bytes) : Bytes := B.take i ++ s ++ B.drop (i + s.length)

/-- `B[i..i+n]` (00_scope.md R9): what `GET_Un` reads, the inverse of `spliceBytes` (40_bit_io.md R133). -/
def sliceBytes (B : Bytes) (i n : Nat) : Bytes := (B.drop i).take n

/-! ### Operand buffers: bits (30_encoding.md R94) -/

/-- The bit at bit offset `p`: bit `7 - (p mod 8)` of byte `p / 8` (30_encoding.md R94). -/
def bitAt (B : Bytes) (p : Nat) : Bool := (B.getD (p / 8) 0).getLsbD (7 - p % 8)

/-- A byte with bit `k` replaced. -/
def byteWithBit (x : Byte) (k : Nat) (b : Bool) : Byte :=
  if b then x ||| (1#8 <<< k) else x &&& ~~~(1#8 <<< k)

/-- The buffer with the bit at bit offset `p` replaced. -/
def setBitAt (B : Bytes) (p : Nat) (b : Bool) : Bytes :=
  B.set (p / 8) (byteWithBit (B.getD (p / 8) 0) (7 - p % 8) b)

/-- The loop of `PUT_BITS` after `j` of its `w` bits: bit `o + j` takes `v[w-1-j]` (40_bit_io.md R131). -/
def putBitsLoop (B : Bytes) (o w v : Nat) : Nat → Bytes
  | 0 => B
  | j + 1 => setBitAt (putBitsLoop B o w v j) (o + j) (v.testBit (w - 1 - j))

/-- The field of width `w` at bit offset `o` written with `v` (40_bit_io.md R131, R133). -/
def putField (B : Bytes) (o w v : Nat) : Bytes := putBitsLoop B o w v w

/-- The loop of `GET_BITS` after `j` bits: `v <- (v << 1) | bit` (40_bit_io.md R132). -/
def getBitsLoop (B : Bytes) (o : Nat) : Nat → Nat
  | 0 => 0
  | j + 1 => getBitsLoop B o j <<< 1 ||| (bitAt B (o + j)).toNat

/-- The field of width `w` at bit offset `o` (40_bit_io.md R132): the inverse of `putField` (R133). -/
def getField (w : Nat) (B : Bytes) (o : Nat) : BitVec w := BitVec.ofNat w (getBitsLoop B o w)

/-! ### The slots of the RX unit -/

/-- The slot indices in the order "first" refers to (10_state.md R24, decision D7). -/
def slotIndices : List (Fin 8) := [0, 1, 2, 3, 4, 5, 6, 7]

/-- `slot[k]`. -/
def slotAt (rx : RxUnit) (k : Fin 8) : Slot := rx[k]

/-- Whether a slot is occupied by the transfer of an identifier. -/
def holds (rx : RxUnit) (k : Fin 8) (id : BitVec 29) : Bool := (slotAt rx k).occ && (slotAt rx k).id == id

/-- The slot file with slot `k` replaced. -/
def setSlot (rx : RxUnit) (k : Fin 8) (sl : Slot) : RxUnit := rx.set k sl

/-- A slot made empty. -/
def Slot.clear (sl : Slot) : Slot := { sl with occ := false }

/-- `clear(slot[k])` is `slot[k].occ <- false` (10_state.md R37): no other field is written (log 8). -/
def clearSlot (rx : RxUnit) (k : Fin 8) : RxUnit := setSlot rx k (slotAt rx k).clear

/-- Every slot made empty: `for k in 0..7: slot[k].occ <- false` (45_rx_decoder.md R260). -/
def clearAll (rx : RxUnit) : RxUnit := rx.map Slot.clear

end Sys2Proof.Machine
end

