-- ==== Sys2Proof/Machine/Crc.lean ====
section
/-! DEFINITION. The CRC-16 unit (43_crc16.md): CRC-16/CCITT-FALSE, the one implementation that `CRC16`, the TX unit and
the RX unit share (R234). The algorithm is the spec's R231, which the spec itself marks as general knowledge
(log 10). -/

namespace Sys2Proof.Machine

/-- One shift of the register (R231). -/
def crcShift (c : BitVec 16) : BitVec 16 :=
  if c.getLsbD 15 then (c <<< 1) ^^^ 0x1021#16 else c <<< 1

/-- `n` shifts. -/
def crcShifts : Nat → BitVec 16 → BitVec 16
  | 0, c => c
  | n + 1, c => crcShifts n (crcShift c)

/-- One byte: exclusive-or into the high byte, then 8 shifts (R231). -/
def crcByte (c : BitVec 16) (b : Byte) : BitVec 16 := crcShifts 8 (c ^^^ (b.setWidth 16 <<< 8))

/-- The CRC of a byte sequence: initial value 0xFFFF, no reflection, no final exclusive-or (R230, R231). -/
def crc16 (s : Bytes) : BitVec 16 := s.foldl crcByte 0xFFFF#16

/-- `CRC16` (R232). -/
def execCrc16 (s : Bytes) (st : State) : Outcome := st.deliver (.u16 (crc16 s))

end Sys2Proof.Machine
end

