-- ==== Sys2Proof/Machine/Operands.lean ====
section
/-! DEFINITION. The operand forms, each written once: an operand buffer with a byte index or a bit offset
(40_bit_io.md R120), a body assembled from or read into fields (42_message_codecs.md R151, R152), an opaque body
(R150), and the data bytes of a frame (30_encoding.md R83). -/

namespace Sys2Proof.Machine

/-- `PUT_Un` with `n` bytes: refused unless `i + n <= m` (40_bit_io.md R121 to R125). -/
def putBigEndian (n : Nat) (B : Bytes) (i v : Nat) (s : State) : Outcome :=
  if i + n > B.length then .refused .outsideBuffer
  else s.deliver (.bytes (spliceBytes B i (beBytes n v)))

/-- `GET_Un` with `n` bytes: refused unless `i + n <= m`; the value goes to the result of its width
(40_bit_io.md R126 to R130). -/
def getBigEndian (n : Nat) (B : Bytes) (i : Nat) (result : Nat → Result) (s : State) : Outcome :=
  if i + n > B.length then .refused .outsideBuffer
  else s.deliver (result (beValue (sliceBytes B i n)))

/-- The width of a bit field is 1 to 64 (40_bit_io.md R131, R132). -/
def bitWidthOk (w : Nat) : Bool := decide (1 ≤ w) && decide (w ≤ 64)

/-- A field of a body under assembly: bit offset, width, value (42_message_codecs.md R151). -/
structure FieldValue where
  offset : Nat
  width  : Nat
  value  : Nat
deriving DecidableEq, Repr

/-- How `PACK.<class>` builds a body: zero bytes, then each field by `PUT_BITS` (42_message_codecs.md R151). -/
def packBody (size : Nat) (fields : List FieldValue) : Bytes :=
  fields.foldl (fun B f => putField B f.offset f.width f.value) (List.replicate size 0)

/-- A Boolean field of a body: 1 for true (42_message_codecs.md R153). -/
def getFlag (B : Bytes) (o : Nat) : Bool := bitAt B o

/-- `UNPACK` of a body with fields: refused if it is shorter than its size (42_message_codecs.md R152). -/
def unpackWith (size : Nat) (B : Bytes) (view : Bytes → Result) (s : State) : Outcome :=
  if B.length < size then .refused .bodyTooShort else s.deliver (view B)

/-- `PACK` of a class with no given layout: the body itself, refused at another length (42_message_codecs.md R150). -/
def packOpaque (c : MsgClass) (body : Bytes) (s : State) : Outcome :=
  if body.length ≠ sizeBytes c then .refused .badBodyLength else s.deliver (.bytes body)

/-- `UNPACK` of a class with no given layout: the first `SIZE_BYTES` bytes (42_message_codecs.md R150). -/
def unpackOpaque (c : MsgClass) (B : Bytes) (s : State) : Outcome :=
  unpackWith (sizeBytes c) B (fun b => .bytes (b.take (sizeBytes c))) s

/-- Every byte of a frame but the tail: `d[0..n-1]` (00_scope.md R9, 45_rx_decoder.md R266). -/
def frameBody (d : Bytes) : Bytes := d.dropLast

end Sys2Proof.Machine
end

