-- ==== Sys2Proof/Machine/ExtId.lean ====
section
/-! DEFINITION. The extended-identifier composer (41_ext_id.md). -/

namespace Sys2Proof.Machine

/-- The identifier of four fields, each masked to its width (R140). -/
def makeId (priority messageType nodeType nodeId : BitVec 32) : BitVec 32 :=
  ((priority &&& 0x7) <<< 26) ||| ((messageType &&& 0xFF) <<< 18) ||| ((nodeType &&& 0x3F) <<< 12)
    ||| (nodeId &&& 0xFFF)

/-- `message_type = (id >> 18) & 0xFF` of an identifier (R141, 30_encoding.md R81). -/
def messageTypeOfId (id : BitVec 29) : BitVec 8 := (id >>> 18).setWidth 8

/-- The identifier of a class for a node (R142). -/
def wireId (p : Config.Params) (c : MsgClass) (nodeType nodeId : BitVec 32) : BitVec 32 :=
  makeId ((priorityOf p c).setWidth 32) ((messageTypeOf c).setWidth 32) nodeType nodeId

/-- `MAKE_ID` (R140). -/
def execMakeId (priority messageType nodeType nodeId : BitVec 32) (s : State) : Outcome :=
  s.deliver (.u32 (makeId priority messageType nodeType nodeId))

/-- `SPLIT_ID` (R141): bits 31..29 are ignored. -/
def execSplitId (id : BitVec 32) (s : State) : Outcome :=
  s.deliver (.idFields ((id >>> 26).setWidth 3) ((id >>> 18).setWidth 8) ((id >>> 12).setWidth 6) (id.setWidth 12))

/-- `WIRE_ID` (R142): refused outside the catalogue. -/
def execWireId (sel : BitVec 8) (nodeType nodeId : BitVec 32) (s : State) : Outcome :=
  match classOf sel with
  | none => .refused .unknownClass
  | some c => s.deliver (.u32 (wireId s.params c nodeType nodeId))

end Sys2Proof.Machine
end

