-- ==== Sys2Proof/Machine/Sum.lean ====
section
/-! DEFINITION. The message sum: `SIZE_OF` and the dispatch `DECODE` (42_message_codecs.md R154 to R156). -/

namespace Sys2Proof.Machine

/-- `decode(message_type, bytes)`: none for an unknown type or a length `P_ACCEPT_LEN` rejects (R155, R156). -/
def decodeMessage (p : Config.Params) (mt : BitVec 8) (B : Bytes) : Option Message :=
  match classOf mt with
  | none => none
  | some _ => if acceptLen p mt B.length then some { mt := mt, body := B } else none

/-- `SIZE_OF` (R154). -/
def execSizeOf (sel : BitVec 8) (s : State) : Outcome := s.deliver (.size ((classOf sel).map sizeBytes))

/-- `DECODE` (R155). -/
def execDecode (sel : BitVec 8) (B : Bytes) (s : State) : Outcome :=
  s.deliver (.decoded (decodeMessage s.params sel B))

end Sys2Proof.Machine
end

