-- ==== Sys2Proof/Machine/Rx.lean ====
section
/-! DEFINITION. The RX unit, the multi-frame decoder with its eight slots (45_rx_decoder.md). The six error kinds of
60_exceptions.md R300 are results of none with at most one slot cleared; they stand in the rules below. -/

namespace Sys2Proof.Machine

/-! ### Slot lookup -/

/-- Step 1 of `LOOKUP`: the occupied slot that holds an identifier (R267); the first, were there several (log 11). -/
def ownSlot (rx : RxUnit) (id : BitVec 29) : Option (Fin 8) := slotIndices.find? fun k => holds rx k id

/-- Step 2 of `LOOKUP`: the empty slot with the least index (R267, decision D7). -/
def firstEmpty (rx : RxUnit) : Option (Fin 8) := slotIndices.find? fun k => !(slotAt rx k).occ

/-- Whether slot `k` was opened strictly earlier than slot `best`: plain unsigned comparison (R268, decision D22). -/
def opensEarlier (rx : RxUnit) (k best : Fin 8) : Bool := decide ((slotAt rx k).ts < (slotAt rx best).ts)

/-- `LRU()` (R268), asked for when all slots are occupied: the smallest `ts`, and among equals the least index (decision
D6): a scan that keeps the first strict minimum. -/
def lru (rx : RxUnit) : Fin 8 :=
  slotIndices.foldl (fun best k => if opensEarlier rx k best then k else best) 0

/-- `LOOKUP(id)` (R267): selects a slot and changes no state. -/
def lookup (rx : RxUnit) (id : BitVec 29) : Fin 8 :=
  match ownSlot rx id with
  | some k => k
  | none =>
    match firstEmpty rx with
    | some k => k
    | none => lru rx

/-! ### Handling a frame at its slot -/

/-- A slot opened by a frame of 4 to 8 data bytes (R269): the CRC from `d[0..2]` little-endian (20_memory.md R57), the
body `d[2..n-1]`; the bytes of `buf` above are left as they were. -/
def openedSlot (old : Slot) (id : BitVec 29) (d : Bytes) (ts : BitVec 64) (h : d.length ≤ 8) : Slot where
  occ := true
  id := id
  ts := ts
  crc := d.getD 1 0 ++ d.getD 0 0
  buf := old.buf.writeBytes 0 ((frameBody d).drop 2)
  len := ⟨d.length - 3, by omega⟩

/-- Whether a frame opens a transfer: `sot and not eot and not tog and n >= 4` (R269). -/
def isOpening (d : Bytes) (tail : Byte) : Bool :=
  tailSot tail && !tailEot tail && !tailTog tail && decide (Config.openMin ≤ d.length)

/-- An empty slot: an opening frame occupies it (R269), anything else is dropped (R270). -/
def handleEmpty (rx : RxUnit) (k : Fin 8) (id : BitVec 29) (d : Bytes) (tail : Byte) (ts : BitVec 64)
    (h : d.length ≤ 8) : RxUnit :=
  if isOpening d tail then setSlot rx k (openedSlot (slotAt rx k) id d ts h) else rx

/-- The slot after `d[0..n-1]` has been appended (R274). -/
def appended (sl : Slot) (d : Bytes) (h : sl.len.val + (d.length - 1) ≤ 256) : Slot :=
  { sl with
    buf := sl.buf.writeBytes sl.len (frameBody d)
    len := ⟨sl.len + (d.length - 1), by omega⟩ }

/-- The end of a transfer whose last bytes stand in slot `k` (R275): the slot is cleared on every path; a message is
delivered if the CRC matches and `DECODE` accepts the body. -/
def complete (s : State) (k : Fin 8) : Outcome :=
  let sl := slotAt s.rx k
  let body := sl.buf.readBytes 0 sl.len
  if crc16 body ≠ sl.crc then s.deliverRx (clearSlot s.rx k) none
  else
    s.deliverRx (clearSlot s.rx k)
      ((decodeMessage s.params (messageTypeOfId sl.id) body).map fun m =>
        { id := sl.id, crc := crc16 body, msg := m })

/-- A slot occupied by the frame's own identifier: policing (R271, R272), overflow (R273), append (R274), completion
(R275), in that order. -/
def handleOwn (s : State) (k : Fin 8) (d : Bytes) (tail : Byte) : Outcome :=
  if tailTog tail ≠ expectedToggle s.params (slotAt s.rx k).len ∨ tailSot tail then s.deliverRx s.rx none
  else if h : (slotAt s.rx k).len.val + (d.length - 1) ≤ 256 then
    let rx' := setSlot s.rx k (appended (slotAt s.rx k) d h)
    if tailEot tail then complete (s.setRx rx') k else s.deliverRx rx' none
  else s.deliverRx (clearSlot s.rx k) none

/-- `HANDLE(k)` (R261): an occupied slot with a foreign identifier is cleared and the frame handled once more, against
the empty slot (R276). -/
def handle (s : State) (k : Fin 8) (id : BitVec 29) (d : Bytes) (tail : Byte) (ts : BitVec 64)
    (h : d.length ≤ 8) : Outcome :=
  if (slotAt s.rx k).occ then
    if (slotAt s.rx k).id = id then handleOwn s k d tail
    else s.deliverRx (handleEmpty (clearSlot s.rx k) k id d tail ts h) none
  else s.deliverRx (handleEmpty s.rx k id d tail ts h) none

/-- The single-frame case (R266): no slot is read or written. -/
def receiveSingle (s : State) (id : BitVec 29) (d : Bytes) (tail : Byte) : Outcome :=
  if tailTog tail then s.deliverRx s.rx none
  else
    s.deliverRx s.rx
      ((decodeMessage s.params (messageTypeOfId id) (frameBody d)).map fun m =>
        { id := id, crc := crc16 (frameBody d), msg := m })

/-- The whole of `RX_FRAME` (R261), in the order of 60_exceptions.md R312: masking (R262), the log-channel filter (R263),
the empty frame (R264), the single-frame case (R266), then lookup and the slot. -/
def receiveFrame (idIn : BitVec 32) (d : Bytes) (ts : BitVec 64) (s : State) : Outcome :=
  let id := idIn.setWidth 29
  if h : d.length ≤ 8 then
    if messageTypeOfId id = Config.mtLog then s.deliverRx s.rx none
    else
      match d.getLast? with
      | none => s.deliverRx s.rx none
      | some tail =>
        if tailSot tail && tailEot tail then receiveSingle s id d tail
        else handle s (lookup s.rx id) id d tail ts h
  else .refused .frameTooLong

/-- `RX_FRAME` (R261). -/
def execRxFrame (idIn : BitVec 32) (d : Bytes) (ts : BitVec 64) (s : State) : Outcome :=
  receiveFrame idIn d ts s

/-- `RX_RESET` (R260): every slot empty. -/
def execRxReset (s : State) : Outcome := .next ((s.setRx (clearAll s.rx)).setResult .nothing)

end Sys2Proof.Machine
end

