-- ==== Sys2Proof/Machine/Arrivals.lean ====
section
/-! DEFINITION. Frames reaching the RX unit, read by their tail byte (30_encoding.md R89) or by their identifier (R91,
R92): what the RX unit does with a frame of each kind is `RX_FRAME` of that frame (45_rx_decoder.md R261; log 4). -/

namespace Sys2Proof.Machine

/-- A frame with the data bytes `body` before its tail byte (30_encoding.md R84). -/
def receiveWithTail (sot eot tog : Bool) (reserved : BitVec 5) (idIn : BitVec 32) (body : Bytes) (ts : BitVec 64)
    (s : State) : Outcome :=
  receiveFrame idIn (body ++ [tailByte sot eot tog reserved]) ts s

/-- A frame whose identifier has a given message_type (30_encoding.md R80). -/
def receiveWithIdent (mt : BitVec 8) (x : IdentFields) (d : Bytes) (ts : BitVec 64) (s : State) : Outcome :=
  receiveFrame (identWord mt x) d ts s

/-- `FRAME.SINGLE` (R89): decoded at once, touching no slot. -/
def execFrameSingle (reserved : BitVec 5) (idIn : BitVec 32) (body : Bytes) (ts : BitVec 64) (s : State) : Outcome :=
  receiveWithTail true true false reserved idIn body ts s

/-- `FRAME.SINGLE_BADTOG` (R89): rejected, touching no slot. -/
def execFrameSingleBadtog (reserved : BitVec 5) (idIn : BitVec 32) (body : Bytes) (ts : BitVec 64) (s : State) : Outcome :=
  receiveWithTail true true true reserved idIn body ts s

/-- `FRAME.FIRST` (R89): opens a slot if routed to an empty one and `n >= 4`. -/
def execFrameFirst (reserved : BitVec 5) (idIn : BitVec 32) (body : Bytes) (ts : BitVec 64) (s : State) : Outcome :=
  receiveWithTail true false false reserved idIn body ts s

/-- `FRAME.FIRST_BADTOG` (R89): never opens a slot; it can evict. -/
def execFrameFirstBadtog (reserved : BitVec 5) (idIn : BitVec 32) (body : Bytes) (ts : BitVec 64) (s : State) : Outcome :=
  receiveWithTail true false true reserved idIn body ts s

/-- `FRAME.MIDDLE` (R89): a continuation. -/
def execFrameMiddle (tog : Bool) (reserved : BitVec 5) (idIn : BitVec 32) (body : Bytes) (ts : BitVec 64) (s : State) : Outcome :=
  receiveWithTail false false tog reserved idIn body ts s

/-- `FRAME.LAST` (R89): a continuation that ends the transfer. -/
def execFrameLast (tog : Bool) (reserved : BitVec 5) (idIn : BitVec 32) (body : Bytes) (ts : BitVec 64) (s : State) : Outcome :=
  receiveWithTail false true tog reserved idIn body ts s

/-- `ID.RESET` (R91): message_type 0. -/
def execIdReset (x : IdentFields) (d : Bytes) (ts : BitVec 64) (s : State) : Outcome :=
  receiveWithIdent (messageTypeOf .reset) x d ts s

/-- `ID.UNIX_TIME` (R91): message_type 7. -/
def execIdUnixTime (x : IdentFields) (d : Bytes) (ts : BitVec 64) (s : State) : Outcome :=
  receiveWithIdent (messageTypeOf .unixTime) x d ts s

/-- `ID.PRE_UNIX_TIME` (R91): message_type 8. -/
def execIdPreUnixTime (x : IdentFields) (d : Bytes) (ts : BitVec 64) (s : State) : Outcome :=
  receiveWithIdent (messageTypeOf .preUnixTime) x d ts s

/-- `ID.DATA_TRANSFER` (R91): message_type 16. -/
def execIdDataTransfer (x : IdentFields) (d : Bytes) (ts : BitVec 64) (s : State) : Outcome :=
  receiveWithIdent (messageTypeOf .dataTransfer) x d ts s

/-- `ID.NODE_STATUS` (R91): message_type 32. -/
def execIdNodeStatus (x : IdentFields) (d : Bytes) (ts : BitVec 64) (s : State) : Outcome :=
  receiveWithIdent (messageTypeOf .nodeStatus) x d ts s

/-- `ID.AMP_STATUS` (R91): message_type 33. -/
def execIdAmpStatus (x : IdentFields) (d : Bytes) (ts : BitVec 64) (s : State) : Outcome :=
  receiveWithIdent (messageTypeOf .ampStatus) x d ts s

/-- `ID.PAYLOAD_EPS_STATUS` (R91): message_type 34. -/
def execIdPayloadEpsStatus (x : IdentFields) (d : Bytes) (ts : BitVec 64) (s : State) : Outcome :=
  receiveWithIdent (messageTypeOf .payloadEpsStatus) x d ts s

/-- `ID.VL_STATUS` (R91): message_type 36. -/
def execIdVlStatus (x : IdentFields) (d : Bytes) (ts : BitVec 64) (s : State) : Outcome :=
  receiveWithIdent (messageTypeOf .vlStatus) x d ts s

/-- `ID.AMP_CONTROL` (R91): message_type 64. -/
def execIdAmpControl (x : IdentFields) (d : Bytes) (ts : BitVec 64) (s : State) : Outcome :=
  receiveWithIdent (messageTypeOf .ampControl) x d ts s

/-- `ID.PAYLOAD_EPS_OUTPUT_OVERWRITE` (R91): message_type 65. -/
def execIdPayloadEpsOutputOverwrite (x : IdentFields) (d : Bytes) (ts : BitVec 64) (s : State) : Outcome :=
  receiveWithIdent (messageTypeOf .payloadEpsOutputOverwrite) x d ts s

/-- `ID.ACK` (R91): message_type 66. -/
def execIdAck (x : IdentFields) (d : Bytes) (ts : BitVec 64) (s : State) : Outcome :=
  receiveWithIdent (messageTypeOf .ack) x d ts s

/-- `ID.AMP_OVERWRITE` (R91): message_type 67. -/
def execIdAmpOverwrite (x : IdentFields) (d : Bytes) (ts : BitVec 64) (s : State) : Outcome :=
  receiveWithIdent (messageTypeOf .ampOverwrite) x d ts s

/-- `ID.AMP_RESET_OUTPUT` (R91): message_type 68. -/
def execIdAmpResetOutput (x : IdentFields) (d : Bytes) (ts : BitVec 64) (s : State) : Outcome :=
  receiveWithIdent (messageTypeOf .ampResetOutput) x d ts s

/-- `ID.AIR_BRAKES_CONTROL` (R91): message_type 69. -/
def execIdAirBrakesControl (x : IdentFields) (d : Bytes) (ts : BitVec 64) (s : State) : Outcome :=
  receiveWithIdent (messageTypeOf .airBrakesControl) x d ts s

/-- `ID.BARO_MEASUREMENT` (R91): message_type 128. -/
def execIdBaroMeasurement (x : IdentFields) (d : Bytes) (ts : BitVec 64) (s : State) : Outcome :=
  receiveWithIdent (messageTypeOf .baroMeasurement) x d ts s

/-- `ID.IMU_MEASUREMENT` (R91): message_type 129. -/
def execIdImuMeasurement (x : IdentFields) (d : Bytes) (ts : BitVec 64) (s : State) : Outcome :=
  receiveWithIdent (messageTypeOf .imuMeasurement) x d ts s

/-- `ID.BRIGHTNESS_MEASUREMENT` (R91): message_type 130. -/
def execIdBrightnessMeasurement (x : IdentFields) (d : Bytes) (ts : BitVec 64) (s : State) : Outcome :=
  receiveWithIdent (messageTypeOf .brightnessMeasurement) x d ts s

/-- `ID.ROCKET_STATE` (R91): message_type 131. -/
def execIdRocketState (x : IdentFields) (d : Bytes) (ts : BitVec 64) (s : State) : Outcome :=
  receiveWithIdent (messageTypeOf .rocketState) x d ts s

/-- `ID.MAG_MEASUREMENT` (R91): message_type 132. -/
def execIdMagMeasurement (x : IdentFields) (d : Bytes) (ts : BitVec 64) (s : State) : Outcome :=
  receiveWithIdent (messageTypeOf .magMeasurement) x d ts s

/-- `ID.OZYS_MEASUREMENT` (R91): message_type 133. -/
def execIdOzysMeasurement (x : IdentFields) (d : Bytes) (ts : BitVec 64) (s : State) : Outcome :=
  receiveWithIdent (messageTypeOf .ozysMeasurement) x d ts s

/-- `ID.ICARUS_STATUS` (R91): message_type 160. -/
def execIdIcarusStatus (x : IdentFields) (d : Bytes) (ts : BitVec 64) (s : State) : Outcome :=
  receiveWithIdent (messageTypeOf .icarusStatus) x d ts s

/-- `ID.LOG_CHANNEL` (R92): message_type 255, ignored without touching a slot. -/
def execIdLogChannel (x : IdentFields) (d : Bytes) (ts : BitVec 64) (s : State) : Outcome :=
  receiveWithIdent Config.mtLog x d ts s

end Sys2Proof.Machine
end

