-- ==== Sys2Proof/Machine/BitIo.lean ====
section
/-! DEFINITION. The bit I/O primitives, the big-endian bit-packer (40_bit_io.md). -/

namespace Sys2Proof.Machine

/-- `PUT_U16` (R121). -/
def execPutU16 (B : Bytes) (i : Nat) (v : BitVec 16) (s : State) : Outcome := putBigEndian 2 B i v.toNat s

/-- `PUT_U24` (R122). -/
def execPutU24 (B : Bytes) (i : Nat) (v : BitVec 24) (s : State) : Outcome := putBigEndian 3 B i v.toNat s

/-- `PUT_U32` (R123). -/
def execPutU32 (B : Bytes) (i : Nat) (v : BitVec 32) (s : State) : Outcome := putBigEndian 4 B i v.toNat s

/-- `PUT_U56` (R124). -/
def execPutU56 (B : Bytes) (i : Nat) (v : BitVec 56) (s : State) : Outcome := putBigEndian 7 B i v.toNat s

/-- `PUT_U64` (R125). -/
def execPutU64 (B : Bytes) (i : Nat) (v : BitVec 64) (s : State) : Outcome := putBigEndian 8 B i v.toNat s

/-- `GET_U16` (R126). -/
def execGetU16 (B : Bytes) (i : Nat) (s : State) : Outcome :=
  getBigEndian 2 B i (fun v => .u16 (BitVec.ofNat 16 v)) s

/-- `GET_U24` (R127). -/
def execGetU24 (B : Bytes) (i : Nat) (s : State) : Outcome :=
  getBigEndian 3 B i (fun v => .u24 (BitVec.ofNat 24 v)) s

/-- `GET_U32` (R128). -/
def execGetU32 (B : Bytes) (i : Nat) (s : State) : Outcome :=
  getBigEndian 4 B i (fun v => .u32 (BitVec.ofNat 32 v)) s

/-- `GET_U56` (R129). -/
def execGetU56 (B : Bytes) (i : Nat) (s : State) : Outcome :=
  getBigEndian 7 B i (fun v => .u56 (BitVec.ofNat 56 v)) s

/-- `GET_U64` (R130). -/
def execGetU64 (B : Bytes) (i : Nat) (s : State) : Outcome :=
  getBigEndian 8 B i (fun v => .u64 (BitVec.ofNat 64 v)) s

/-- `PUT_BITS` (R131). -/
def execPutBits (B : Bytes) (o w v : Nat) (s : State) : Outcome :=
  if !bitWidthOk w then .refused .badWidth
  else if o + w > 8 * B.length then .refused .outsideBuffer
  else s.deliver (.bytes (putField B o w v))

/-- `GET_BITS` (R132). -/
def execGetBits (B : Bytes) (o w : Nat) (s : State) : Outcome :=
  if !bitWidthOk w then .refused .badWidth
  else if o + w > 8 * B.length then .refused .outsideBuffer
  else s.deliver (.bits w (getBitsLoop B o w))

end Sys2Proof.Machine
end

