-- ==== Sys2Proof/Machine/Codecs.lean ====
section
/-! DEFINITION. The per-message codecs, `PACK` and `UNPACK` of the 21 classes and the 2 sub-records
(42_message_codecs.md R160 to R205). A class whose layout the spec gives is one list of fields at bit offsets
(R151, R152); the others are opaque bytes (R150, decision D27). -/

namespace Sys2Proof.Machine

/-- The body of `RESET` (R160). -/
def packResetBody (v : ResetFields) : Bytes :=
  packBody (sizeBytes .reset)
    [⟨0, 12, v.nodeId.toNat⟩, ⟨12, 1, v.resetAll.toNat⟩, ⟨13, 1, v.intoBootloader.toNat⟩]

/-- The fields of a body of `RESET` (R161). -/
def unpackResetBody (B : Bytes) : ResetFields where
  nodeId := getField 12 B 0
  resetAll := getFlag B 12
  intoBootloader := getFlag B 13

/-- `PACK.RESET` (R160). -/
def execPackReset (v : ResetFields) (s : State) : Outcome := s.deliver (.bytes (packResetBody v))

/-- `UNPACK.RESET` (R161). -/
def execUnpackReset (B : Bytes) (s : State) : Outcome :=
  unpackWith (sizeBytes .reset) B (fun b => .reset (unpackResetBody b)) s

/-- `PACK.UNIX_TIME` (R162): opaque. -/
def execPackUnixTime (body : Bytes) (s : State) : Outcome := packOpaque .unixTime body s

/-- `UNPACK.UNIX_TIME` (R163): opaque. -/
def execUnpackUnixTime (B : Bytes) (s : State) : Outcome := unpackOpaque .unixTime B s

/-- `PACK.PRE_UNIX_TIME` (R164): no fields, the empty body. -/
def execPackPreUnixTime (s : State) : Outcome := s.deliver (.bytes (packBody (sizeBytes .preUnixTime) []))

/-- `UNPACK.PRE_UNIX_TIME` (R165): the value with no fields, whatever the body. -/
def execUnpackPreUnixTime (B : Bytes) (s : State) : Outcome :=
  unpackWith (sizeBytes .preUnixTime) B (fun _ => .preUnixTime) s

/-- The 32 data bytes as fields, `data[j]` at byte `j` (R166). -/
def dataFields (data : Vector Byte 32) : List FieldValue :=
  data.toList.zipIdx.map fun x => ⟨8 * x.2, 8, x.1.toNat⟩

/-- The body of `DATA_TRANSFER` (R166). -/
def packDataTransferBody (v : DataTransferFields) : Bytes :=
  packBody (sizeBytes .dataTransfer) (dataFields v.data ++
    [⟨256, 8, v.dataLen.toNat⟩, ⟨264, 8, v.sequenceNumber.toNat⟩, ⟨272, 1, v.startOfTransfer.toNat⟩,
     ⟨273, 1, v.endOfTransfer.toNat⟩, ⟨274, 2, v.dataType.toNat⟩, ⟨276, 12, v.destinationNodeId.toNat⟩])

/-- The fields of a body of `DATA_TRANSFER` (R167). -/
def unpackDataTransferBody (B : Bytes) : DataTransferFields where
  data := Vector.ofFn fun j : Fin 32 => getField 8 B (8 * j)
  dataLen := getField 8 B 256
  sequenceNumber := getField 8 B 264
  startOfTransfer := getFlag B 272
  endOfTransfer := getFlag B 273
  dataType := getField 2 B 274
  destinationNodeId := getField 12 B 276

/-- `PACK.DATA_TRANSFER` (R166). -/
def execPackDataTransfer (v : DataTransferFields) (s : State) : Outcome := s.deliver (.bytes (packDataTransferBody v))

/-- `UNPACK.DATA_TRANSFER` (R167). -/
def execUnpackDataTransfer (B : Bytes) (s : State) : Outcome :=
  unpackWith (sizeBytes .dataTransfer) B (fun b => .dataTransfer (unpackDataTransferBody b)) s

/-- The body of `NODE_STATUS` (R168). -/
def packNodeStatusBody (v : NodeStatusFields) : Bytes :=
  packBody (sizeBytes .nodeStatus)
    [⟨0, 24, v.uptimeS.toNat⟩, ⟨24, 2, v.health.toNat⟩, ⟨26, 2, v.mode.toNat⟩, ⟨28, 11, v.customStatusRaw.toNat⟩]

/-- The fields of a body of `NODE_STATUS` (R169). -/
def unpackNodeStatusBody (B : Bytes) : NodeStatusFields where
  uptimeS := getField 24 B 0
  health := getField 2 B 24
  mode := getField 2 B 26
  customStatusRaw := getField 11 B 28

/-- `PACK.NODE_STATUS` (R168). -/
def execPackNodeStatus (v : NodeStatusFields) (s : State) : Outcome := s.deliver (.bytes (packNodeStatusBody v))

/-- `UNPACK.NODE_STATUS` (R169). -/
def execUnpackNodeStatus (B : Bytes) (s : State) : Outcome :=
  unpackWith (sizeBytes .nodeStatus) B (fun b => .nodeStatus (unpackNodeStatusBody b)) s

/-- `PACK.AMP_STATUS` (R170): opaque. -/
def execPackAmpStatus (body : Bytes) (s : State) : Outcome := packOpaque .ampStatus body s

/-- `UNPACK.AMP_STATUS` (R171): opaque. -/
def execUnpackAmpStatus (B : Bytes) (s : State) : Outcome := unpackOpaque .ampStatus B s

/-- `PACK.PAYLOAD_EPS_STATUS` (R174): opaque. -/
def execPackPayloadEpsStatus (body : Bytes) (s : State) : Outcome := packOpaque .payloadEpsStatus body s

/-- `UNPACK.PAYLOAD_EPS_STATUS` (R175): opaque. -/
def execUnpackPayloadEpsStatus (B : Bytes) (s : State) : Outcome := unpackOpaque .payloadEpsStatus B s

/-- The body of `VL_STATUS` (R178). -/
def packVlStatusBody (v : VlStatusFields) : Bytes :=
  packBody (sizeBytes .vlStatus)
    [⟨0, 8, v.flightStage.toNat⟩, ⟨8, 16, v.batteryMv.toNat⟩]

/-- The fields of a body of `VL_STATUS` (R179). -/
def unpackVlStatusBody (B : Bytes) : VlStatusFields where
  flightStage := getField 8 B 0
  batteryMv := getField 16 B 8

/-- `PACK.VL_STATUS` (R178). -/
def execPackVlStatus (v : VlStatusFields) (s : State) : Outcome := s.deliver (.bytes (packVlStatusBody v))

/-- `UNPACK.VL_STATUS` (R179). -/
def execUnpackVlStatus (B : Bytes) (s : State) : Outcome :=
  unpackWith (sizeBytes .vlStatus) B (fun b => .vlStatus (unpackVlStatusBody b)) s

/-- The body of `AMP_CONTROL` (R180). -/
def packAmpControlBody (v : AmpControlFields) : Bytes :=
  packBody (sizeBytes .ampControl)
    [⟨0, 1, v.enable1.toNat⟩, ⟨1, 1, v.enable2.toNat⟩, ⟨2, 1, v.enable3.toNat⟩, ⟨3, 1, v.enable4.toNat⟩]

/-- The fields of a body of `AMP_CONTROL` (R181). -/
def unpackAmpControlBody (B : Bytes) : AmpControlFields where
  enable1 := getFlag B 0
  enable2 := getFlag B 1
  enable3 := getFlag B 2
  enable4 := getFlag B 3

/-- `PACK.AMP_CONTROL` (R180). -/
def execPackAmpControl (v : AmpControlFields) (s : State) : Outcome := s.deliver (.bytes (packAmpControlBody v))

/-- `UNPACK.AMP_CONTROL` (R181). -/
def execUnpackAmpControl (B : Bytes) (s : State) : Outcome :=
  unpackWith (sizeBytes .ampControl) B (fun b => .ampControl (unpackAmpControlBody b)) s

/-- The body of `PAYLOAD_EPS_OUTPUT_OVERWRITE` (R182). -/
def packPayloadEpsOutputOverwriteBody (v : PayloadEpsOutputOverwriteFields) : Bytes :=
  packBody (sizeBytes .payloadEpsOutputOverwrite)
    [⟨0, 2, v.out1.toNat⟩, ⟨2, 2, v.out2.toNat⟩, ⟨4, 2, v.out3.toNat⟩, ⟨6, 12, v.nodeId.toNat⟩]

/-- The fields of a body of `PAYLOAD_EPS_OUTPUT_OVERWRITE` (R183). -/
def unpackPayloadEpsOutputOverwriteBody (B : Bytes) : PayloadEpsOutputOverwriteFields where
  out1 := getField 2 B 0
  out2 := getField 2 B 2
  out3 := getField 2 B 4
  nodeId := getField 12 B 6

/-- `PACK.PAYLOAD_EPS_OUTPUT_OVERWRITE` (R182). -/
def execPackPayloadEpsOutputOverwrite (v : PayloadEpsOutputOverwriteFields) (s : State) : Outcome := s.deliver (.bytes (packPayloadEpsOutputOverwriteBody v))

/-- `UNPACK.PAYLOAD_EPS_OUTPUT_OVERWRITE` (R183). -/
def execUnpackPayloadEpsOutputOverwrite (B : Bytes) (s : State) : Outcome :=
  unpackWith (sizeBytes .payloadEpsOutputOverwrite) B (fun b => .payloadEpsOutputOverwrite (unpackPayloadEpsOutputOverwriteBody b)) s

/-- The body of `ACK` (R184). -/
def packAckBody (v : AckFields) : Bytes :=
  packBody (sizeBytes .ack)
    [⟨0, 16, v.crc.toNat⟩, ⟨16, 12, v.nodeId.toNat⟩]

/-- The fields of a body of `ACK` (R185). -/
def unpackAckBody (B : Bytes) : AckFields where
  crc := getField 16 B 0
  nodeId := getField 12 B 16

/-- `PACK.ACK` (R184). -/
def execPackAck (v : AckFields) (s : State) : Outcome := s.deliver (.bytes (packAckBody v))

/-- `UNPACK.ACK` (R185). -/
def execUnpackAck (B : Bytes) (s : State) : Outcome :=
  unpackWith (sizeBytes .ack) B (fun b => .ack (unpackAckBody b)) s

/-- The body of `AMP_OVERWRITE` (R186). -/
def packAmpOverwriteBody (v : AmpOverwriteFields) : Bytes :=
  packBody (sizeBytes .ampOverwrite)
    [⟨0, 2, v.out1.toNat⟩, ⟨2, 2, v.out2.toNat⟩, ⟨4, 2, v.out3.toNat⟩, ⟨6, 2, v.out4.toNat⟩]

/-- The fields of a body of `AMP_OVERWRITE` (R187). -/
def unpackAmpOverwriteBody (B : Bytes) : AmpOverwriteFields where
  out1 := getField 2 B 0
  out2 := getField 2 B 2
  out3 := getField 2 B 4
  out4 := getField 2 B 6

/-- `PACK.AMP_OVERWRITE` (R186). -/
def execPackAmpOverwrite (v : AmpOverwriteFields) (s : State) : Outcome := s.deliver (.bytes (packAmpOverwriteBody v))

/-- `UNPACK.AMP_OVERWRITE` (R187). -/
def execUnpackAmpOverwrite (B : Bytes) (s : State) : Outcome :=
  unpackWith (sizeBytes .ampOverwrite) B (fun b => .ampOverwrite (unpackAmpOverwriteBody b)) s

/-- `PACK.AMP_RESET_OUTPUT` (R188): opaque. -/
def execPackAmpResetOutput (body : Bytes) (s : State) : Outcome := packOpaque .ampResetOutput body s

/-- `UNPACK.AMP_RESET_OUTPUT` (R189): opaque. -/
def execUnpackAmpResetOutput (B : Bytes) (s : State) : Outcome := unpackOpaque .ampResetOutput B s

/-- The body of `AIR_BRAKES_CONTROL` (R190). -/
def packAirBrakesControlBody (v : AirBrakesControlFields) : Bytes :=
  packBody (sizeBytes .airBrakesControl)
    [⟨0, 16, v.extensionRaw.toNat⟩]

/-- The fields of a body of `AIR_BRAKES_CONTROL` (R191). -/
def unpackAirBrakesControlBody (B : Bytes) : AirBrakesControlFields where
  extensionRaw := getField 16 B 0

/-- `PACK.AIR_BRAKES_CONTROL` (R190). -/
def execPackAirBrakesControl (v : AirBrakesControlFields) (s : State) : Outcome := s.deliver (.bytes (packAirBrakesControlBody v))

/-- `UNPACK.AIR_BRAKES_CONTROL` (R191). -/
def execUnpackAirBrakesControl (B : Bytes) (s : State) : Outcome :=
  unpackWith (sizeBytes .airBrakesControl) B (fun b => .airBrakesControl (unpackAirBrakesControlBody b)) s

/-- `PACK.BARO_MEASUREMENT` (R192): opaque. -/
def execPackBaroMeasurement (body : Bytes) (s : State) : Outcome := packOpaque .baroMeasurement body s

/-- `UNPACK.BARO_MEASUREMENT` (R193): opaque. -/
def execUnpackBaroMeasurement (B : Bytes) (s : State) : Outcome := unpackOpaque .baroMeasurement B s

/-- `PACK.IMU_MEASUREMENT` (R194): opaque. -/
def execPackImuMeasurement (body : Bytes) (s : State) : Outcome := packOpaque .imuMeasurement body s

/-- `UNPACK.IMU_MEASUREMENT` (R195): opaque. -/
def execUnpackImuMeasurement (B : Bytes) (s : State) : Outcome := unpackOpaque .imuMeasurement B s

/-- `PACK.BRIGHTNESS_MEASUREMENT` (R196): opaque. -/
def execPackBrightnessMeasurement (body : Bytes) (s : State) : Outcome := packOpaque .brightnessMeasurement body s

/-- `UNPACK.BRIGHTNESS_MEASUREMENT` (R197): opaque. -/
def execUnpackBrightnessMeasurement (B : Bytes) (s : State) : Outcome := unpackOpaque .brightnessMeasurement B s

/-- The body of `ROCKET_STATE` (R198). -/
def packRocketStateBody (v : RocketStateFields) : Bytes :=
  packBody (sizeBytes .rocketState)
    [⟨0, 32, v.velocity1.toNat⟩, ⟨32, 32, v.velocity2.toNat⟩, ⟨64, 32, v.altitude.toNat⟩,
     ⟨96, 56, v.timestampUs.toNat⟩, ⟨152, 1, v.isCoasting.toNat⟩]

/-- The fields of a body of `ROCKET_STATE` (R199). -/
def unpackRocketStateBody (B : Bytes) : RocketStateFields where
  velocity1 := getField 32 B 0
  velocity2 := getField 32 B 32
  altitude := getField 32 B 64
  timestampUs := getField 56 B 96
  isCoasting := getFlag B 152

/-- `PACK.ROCKET_STATE` (R198). -/
def execPackRocketState (v : RocketStateFields) (s : State) : Outcome := s.deliver (.bytes (packRocketStateBody v))

/-- `UNPACK.ROCKET_STATE` (R199). -/
def execUnpackRocketState (B : Bytes) (s : State) : Outcome :=
  unpackWith (sizeBytes .rocketState) B (fun b => .rocketState (unpackRocketStateBody b)) s

/-- `PACK.MAG_MEASUREMENT` (R200): opaque. -/
def execPackMagMeasurement (body : Bytes) (s : State) : Outcome := packOpaque .magMeasurement body s

/-- `UNPACK.MAG_MEASUREMENT` (R201): opaque. -/
def execUnpackMagMeasurement (B : Bytes) (s : State) : Outcome := unpackOpaque .magMeasurement B s

/-- `PACK.OZYS_MEASUREMENT` (R202): opaque. -/
def execPackOzysMeasurement (body : Bytes) (s : State) : Outcome := packOpaque .ozysMeasurement body s

/-- `UNPACK.OZYS_MEASUREMENT` (R203): opaque. -/
def execUnpackOzysMeasurement (B : Bytes) (s : State) : Outcome := unpackOpaque .ozysMeasurement B s

/-- `PACK.ICARUS_STATUS` (R204): opaque. -/
def execPackIcarusStatus (body : Bytes) (s : State) : Outcome := packOpaque .icarusStatus body s

/-- `UNPACK.ICARUS_STATUS` (R205): opaque. -/
def execUnpackIcarusStatus (B : Bytes) (s : State) : Outcome := unpackOpaque .icarusStatus B s

/-- The body of `AMP_OUT_STATUS` (R172). -/
def packAmpOutStatusBody (v : AmpOutStatusFields) : Bytes :=
  packBody (subRecordBytes .ampOutStatus)
    [⟨0, 1, v.overwrote.toNat⟩, ⟨1, 2, v.status.toNat⟩]

/-- The fields of a body of `AMP_OUT_STATUS` (R173). -/
def unpackAmpOutStatusBody (B : Bytes) : AmpOutStatusFields where
  overwrote := getFlag B 0
  status := getField 2 B 1

/-- `PACK.AMP_OUT_STATUS` (R172). -/
def execPackAmpOutStatus (v : AmpOutStatusFields) (s : State) : Outcome := s.deliver (.bytes (packAmpOutStatusBody v))

/-- `UNPACK.AMP_OUT_STATUS` (R173). -/
def execUnpackAmpOutStatus (B : Bytes) (s : State) : Outcome :=
  unpackWith (subRecordBytes .ampOutStatus) B (fun b => .ampOutStatus (unpackAmpOutStatusBody b)) s

/-- The body of `EPS_OUT_STATUS` (R176). -/
def packEpsOutStatusBody (v : EpsOutStatusFields) : Bytes :=
  packBody (subRecordBytes .epsOutStatus)
    [⟨0, 13, v.currentMa.toNat⟩, ⟨13, 1, v.overwrote.toNat⟩, ⟨14, 2, v.status.toNat⟩]

/-- The fields of a body of `EPS_OUT_STATUS` (R177). -/
def unpackEpsOutStatusBody (B : Bytes) : EpsOutStatusFields where
  currentMa := getField 13 B 0
  overwrote := getFlag B 13
  status := getField 2 B 14

/-- `PACK.EPS_OUT_STATUS` (R176). -/
def execPackEpsOutStatus (v : EpsOutStatusFields) (s : State) : Outcome := s.deliver (.bytes (packEpsOutStatusBody v))

/-- `UNPACK.EPS_OUT_STATUS` (R177). -/
def execUnpackEpsOutStatus (B : Bytes) (s : State) : Outcome :=
  unpackWith (subRecordBytes .epsOutStatus) B (fun b => .epsOutStatus (unpackEpsOutStatusBody b)) s

end Sys2Proof.Machine
end

