-- ==== Sys2Proof/Machine/Tx.lean ====
section
/-! DEFINITION. The TX unit, the multi-frame encoder (44_tx_encoder.md). -/

namespace Sys2Proof.Machine

/-- `has_next` (10_state.md R23). -/
def hasNext (t : TxUnit) : Bool := decide (t.offset < t.len)

/-- `TX_LOAD` (R240): refused for a class outside the catalogue or a body of another length; the bytes of `tx_buf` from
`tx_len` on are left as they were. -/
def execTxLoad (sel : BitVec 8) (body : Bytes) (nodeType : BitVec 6) (nodeId : BitVec 12) (s : State) : Outcome :=
  match classOf sel with
  | none => .refused .unknownClass
  | some c =>
    if body.length ≠ sizeBytes c then .refused .badBodyLength
    else
      s.deliverTx
        { id := (wireId s.params c (nodeType.setWidth 32) (nodeId.setWidth 32)).setWidth 29
          buf := s.tx.buf.writeBytes 0 body
          len := ⟨sizeBytes c, sizeBytes_lt c⟩
          crc := crc16 body
          offset := 0
          toggle := false }
        .nothing

/-- `TX_HAS_NEXT` (R241). -/
def execTxHasNext (s : State) : Outcome := s.deliver (.hasNext (hasNext s.tx))

/-- Emits the frame `pre ++ tx_buf[tx_offset..tx_offset+count] ++ [tail]` with identifier `tx_id` (R247) and leaves
`tx_offset` and `tx_toggle` at new values; `tx_buf` is only read (10_state.md R22). -/
def txEmit (s : State) (pre : Bytes) (count : Nat) (tail : Byte) (offset' : Fin 65) (toggle' : Bool) : Outcome :=
  s.deliverTx { s.tx with offset := offset', toggle := toggle' }
    (.frame s.tx.id (pre ++ s.tx.buf.readBytes s.tx.offset count ++ [tail]))

/-- The CRC prefix of an opening frame, low byte first (R244, 20_memory.md R57). -/
def crcPrefix (crc : BitVec 16) : Bytes := [crc.setWidth 8, (crc >>> 8).setWidth 8]

/-- `TX_NEXT` (R242): SINGLE (R243), FIRST (R244), LAST (R245) or MIDDLE (R246), tested in that order; refused when
nothing is left (R250). -/
def execTxNext (s : State) : Outcome :=
  let t := s.tx
  if t.offset < t.len then
    if t.offset = 0 ∧ t.len.val ≤ Config.singleMax then
      txEmit s [] t.len (txTail true true false) t.len t.toggle
    else if t.offset = 0 then
      txEmit s (crcPrefix t.crc) Config.firstBody (txTail true false false) 5 (!t.toggle)
    else if h : t.len.val ≤ t.offset.val + 7 then
      txEmit s [] (t.len - t.offset) (txTail false true t.toggle) t.len (!t.toggle)
    else
      txEmit s [] Config.contBody (txTail false false t.toggle) ⟨t.offset + 7, by omega⟩ (!t.toggle)
  else .refused .nothingToSend

end Sys2Proof.Machine
end

