-- ==== Sys2Proof/Machine/Dispatch.lean ====
section
/-! DEFINITION. One arm per operation, each one call of its meaning. -/

namespace Sys2Proof.Machine

def exec (i : Instr) (s : State) : Host.Outcome State Fault Refusal :=
  match i with
  | .putU16 B k v => Sys2Proof.Machine.execPutU16 B k v s
  | .putU24 B k v => Sys2Proof.Machine.execPutU24 B k v s
  | .putU32 B k v => Sys2Proof.Machine.execPutU32 B k v s
  | .putU56 B k v => Sys2Proof.Machine.execPutU56 B k v s
  | .putU64 B k v => Sys2Proof.Machine.execPutU64 B k v s
  | .getU16 B k => Sys2Proof.Machine.execGetU16 B k s
  | .getU24 B k => Sys2Proof.Machine.execGetU24 B k s
  | .getU32 B k => Sys2Proof.Machine.execGetU32 B k s
  | .getU56 B k => Sys2Proof.Machine.execGetU56 B k s
  | .getU64 B k => Sys2Proof.Machine.execGetU64 B k s
  | .putBits B o w v => Sys2Proof.Machine.execPutBits B o w v s
  | .getBits B o w => Sys2Proof.Machine.execGetBits B o w s
  | .makeId priority messageType nodeType nodeId => Sys2Proof.Machine.execMakeId priority messageType nodeType nodeId s
  | .splitId id => Sys2Proof.Machine.execSplitId id s
  | .wireId sel nodeType nodeId => Sys2Proof.Machine.execWireId sel nodeType nodeId s
  | .crc16 bytes => Sys2Proof.Machine.execCrc16 bytes s
  | .sizeOf sel => Sys2Proof.Machine.execSizeOf sel s
  | .decode sel B => Sys2Proof.Machine.execDecode sel B s
  | .txLoad sel body nodeType nodeId => Sys2Proof.Machine.execTxLoad sel body nodeType nodeId s
  | .txHasNext => Sys2Proof.Machine.execTxHasNext s
  | .txNext => Sys2Proof.Machine.execTxNext s
  | .rxReset => Sys2Proof.Machine.execRxReset s
  | .rxFrame idIn d ts => Sys2Proof.Machine.execRxFrame idIn d ts s
  | .packReset v => Sys2Proof.Machine.execPackReset v s
  | .unpackReset B => Sys2Proof.Machine.execUnpackReset B s
  | .packUnixTime body => Sys2Proof.Machine.execPackUnixTime body s
  | .unpackUnixTime B => Sys2Proof.Machine.execUnpackUnixTime B s
  | .packPreUnixTime => Sys2Proof.Machine.execPackPreUnixTime s
  | .unpackPreUnixTime B => Sys2Proof.Machine.execUnpackPreUnixTime B s
  | .packDataTransfer v => Sys2Proof.Machine.execPackDataTransfer v s
  | .unpackDataTransfer B => Sys2Proof.Machine.execUnpackDataTransfer B s
  | .packNodeStatus v => Sys2Proof.Machine.execPackNodeStatus v s
  | .unpackNodeStatus B => Sys2Proof.Machine.execUnpackNodeStatus B s
  | .packAmpStatus body => Sys2Proof.Machine.execPackAmpStatus body s
  | .unpackAmpStatus B => Sys2Proof.Machine.execUnpackAmpStatus B s
  | .packPayloadEpsStatus body => Sys2Proof.Machine.execPackPayloadEpsStatus body s
  | .unpackPayloadEpsStatus B => Sys2Proof.Machine.execUnpackPayloadEpsStatus B s
  | .packVlStatus v => Sys2Proof.Machine.execPackVlStatus v s
  | .unpackVlStatus B => Sys2Proof.Machine.execUnpackVlStatus B s
  | .packAmpControl v => Sys2Proof.Machine.execPackAmpControl v s
  | .unpackAmpControl B => Sys2Proof.Machine.execUnpackAmpControl B s
  | .packPayloadEpsOutputOverwrite v => Sys2Proof.Machine.execPackPayloadEpsOutputOverwrite v s
  | .unpackPayloadEpsOutputOverwrite B => Sys2Proof.Machine.execUnpackPayloadEpsOutputOverwrite B s
  | .packAck v => Sys2Proof.Machine.execPackAck v s
  | .unpackAck B => Sys2Proof.Machine.execUnpackAck B s
  | .packAmpOverwrite v => Sys2Proof.Machine.execPackAmpOverwrite v s
  | .unpackAmpOverwrite B => Sys2Proof.Machine.execUnpackAmpOverwrite B s
  | .packAmpResetOutput body => Sys2Proof.Machine.execPackAmpResetOutput body s
  | .unpackAmpResetOutput B => Sys2Proof.Machine.execUnpackAmpResetOutput B s
  | .packAirBrakesControl v => Sys2Proof.Machine.execPackAirBrakesControl v s
  | .unpackAirBrakesControl B => Sys2Proof.Machine.execUnpackAirBrakesControl B s
  | .packBaroMeasurement body => Sys2Proof.Machine.execPackBaroMeasurement body s
  | .unpackBaroMeasurement B => Sys2Proof.Machine.execUnpackBaroMeasurement B s
  | .packImuMeasurement body => Sys2Proof.Machine.execPackImuMeasurement body s
  | .unpackImuMeasurement B => Sys2Proof.Machine.execUnpackImuMeasurement B s
  | .packBrightnessMeasurement body => Sys2Proof.Machine.execPackBrightnessMeasurement body s
  | .unpackBrightnessMeasurement B => Sys2Proof.Machine.execUnpackBrightnessMeasurement B s
  | .packRocketState v => Sys2Proof.Machine.execPackRocketState v s
  | .unpackRocketState B => Sys2Proof.Machine.execUnpackRocketState B s
  | .packMagMeasurement body => Sys2Proof.Machine.execPackMagMeasurement body s
  | .unpackMagMeasurement B => Sys2Proof.Machine.execUnpackMagMeasurement B s
  | .packOzysMeasurement body => Sys2Proof.Machine.execPackOzysMeasurement body s
  | .unpackOzysMeasurement B => Sys2Proof.Machine.execUnpackOzysMeasurement B s
  | .packIcarusStatus body => Sys2Proof.Machine.execPackIcarusStatus body s
  | .unpackIcarusStatus B => Sys2Proof.Machine.execUnpackIcarusStatus B s
  | .packAmpOutStatus v => Sys2Proof.Machine.execPackAmpOutStatus v s
  | .unpackAmpOutStatus B => Sys2Proof.Machine.execUnpackAmpOutStatus B s
  | .packEpsOutStatus v => Sys2Proof.Machine.execPackEpsOutStatus v s
  | .unpackEpsOutStatus B => Sys2Proof.Machine.execUnpackEpsOutStatus B s
  | .frameSingle reserved idIn body ts => Sys2Proof.Machine.execFrameSingle reserved idIn body ts s
  | .frameSingleBadtog reserved idIn body ts => Sys2Proof.Machine.execFrameSingleBadtog reserved idIn body ts s
  | .frameFirst reserved idIn body ts => Sys2Proof.Machine.execFrameFirst reserved idIn body ts s
  | .frameFirstBadtog reserved idIn body ts => Sys2Proof.Machine.execFrameFirstBadtog reserved idIn body ts s
  | .frameMiddle tog reserved idIn body ts => Sys2Proof.Machine.execFrameMiddle tog reserved idIn body ts s
  | .frameLast tog reserved idIn body ts => Sys2Proof.Machine.execFrameLast tog reserved idIn body ts s
  | .idReset x d ts => Sys2Proof.Machine.execIdReset x d ts s
  | .idUnixTime x d ts => Sys2Proof.Machine.execIdUnixTime x d ts s
  | .idPreUnixTime x d ts => Sys2Proof.Machine.execIdPreUnixTime x d ts s
  | .idDataTransfer x d ts => Sys2Proof.Machine.execIdDataTransfer x d ts s
  | .idNodeStatus x d ts => Sys2Proof.Machine.execIdNodeStatus x d ts s
  | .idAmpStatus x d ts => Sys2Proof.Machine.execIdAmpStatus x d ts s
  | .idPayloadEpsStatus x d ts => Sys2Proof.Machine.execIdPayloadEpsStatus x d ts s
  | .idVlStatus x d ts => Sys2Proof.Machine.execIdVlStatus x d ts s
  | .idAmpControl x d ts => Sys2Proof.Machine.execIdAmpControl x d ts s
  | .idPayloadEpsOutputOverwrite x d ts => Sys2Proof.Machine.execIdPayloadEpsOutputOverwrite x d ts s
  | .idAck x d ts => Sys2Proof.Machine.execIdAck x d ts s
  | .idAmpOverwrite x d ts => Sys2Proof.Machine.execIdAmpOverwrite x d ts s
  | .idAmpResetOutput x d ts => Sys2Proof.Machine.execIdAmpResetOutput x d ts s
  | .idAirBrakesControl x d ts => Sys2Proof.Machine.execIdAirBrakesControl x d ts s
  | .idBaroMeasurement x d ts => Sys2Proof.Machine.execIdBaroMeasurement x d ts s
  | .idImuMeasurement x d ts => Sys2Proof.Machine.execIdImuMeasurement x d ts s
  | .idBrightnessMeasurement x d ts => Sys2Proof.Machine.execIdBrightnessMeasurement x d ts s
  | .idRocketState x d ts => Sys2Proof.Machine.execIdRocketState x d ts s
  | .idMagMeasurement x d ts => Sys2Proof.Machine.execIdMagMeasurement x d ts s
  | .idOzysMeasurement x d ts => Sys2Proof.Machine.execIdOzysMeasurement x d ts s
  | .idIcarusStatus x d ts => Sys2Proof.Machine.execIdIcarusStatus x d ts s
  | .idLogChannel x d ts => Sys2Proof.Machine.execIdLogChannel x d ts s

end Sys2Proof.Machine
end

