-- ==== Sys2Proof/Machine/Step.lean ====
section
/-! DEFINITION. One step: the block takes the host's next request, decodes it and performs it to completion
(00_scope.md R13, 20_memory.md R63, R66). -/

namespace Sys2Proof.Machine

/-- One step. With no request presented the block does nothing: it "never acts on its own" (00_scope.md R13; log 1). A
request that is no operation is refused (30_encoding.md R99). -/
def step (s : State) : Host.Outcome State Fault Refusal :=
  match s.requests with
  | [] => .next s
  | r :: rest =>
    match decode r with
    | .error e => .refused (.request e)
    | .ok i => exec i (s.setRequests rest)

/-- The state with a request presented ahead of any other. -/
def State.present (s : State) (r : Request) : State := s.setRequests (r :: s.requests)

/-- The state with a word of the opcode table presented as the next request, with the operands of `tableRequest`
(log 3). -/
def State.withFetchWord (s : State) (nbits w : Nat) : State := s.present (tableRequest nbits w)

end Sys2Proof.Machine
end

