-- ==== Sys2Proof/Safety.lean ====
section
/-! DEFINITION. The invariant of the block (10_state.md R36), and what a safe step is. -/

namespace Sys2Proof.Machine

/-- What R36 (c) to (e) and R21 say of the TX unit: the buffer's canonical form, `0 <= tx_offset <=
tx_len`, the offsets a transfer can stand at, the toggle that goes with each, and `tx_crc` the CRC of the body. The
clauses on `tx_offset = 0` and on the offsets of a body of up to 7 bytes are DEDUCED from 44_tx_encoder.md R240 and
R243: R36 (d) and (e) are not kept by a step without them. -/
def TxUnit.Inv (t : TxUnit) : Prop :=
  t.buf.wf = true ∧
  t.offset ≤ t.len ∧
  (t.offset = 0 → t.toggle = false) ∧
  (t.len.val ≤ 7 → t.toggle = false ∧ (t.offset = 0 ∨ t.offset = t.len)) ∧
  (8 ≤ t.len.val → t.offset = 0 ∨ t.offset = t.len ∨ (5 ≤ t.offset.val ∧ (t.offset.val - 5) % 7 = 0)) ∧
  (8 ≤ t.len.val → 0 < t.offset.val → t.offset < t.len → t.toggle = ((t.offset.val - 5) / 7 % 2 == 0)) ∧
  (1 ≤ t.len.val → crc16 (t.buf.readBytes 0 t.len) = t.crc)

/-- What R36 (a) says of an occupied slot; and the canonical form of every slot's buffer. -/
def Slot.Inv (sl : Slot) : Prop :=
  sl.buf.wf = true ∧ (sl.occ = true → 1 ≤ sl.len.val)

/-- R36 (a) and (b): every slot is in order, and no two occupied slots hold the same identifier. -/
def RxUnit.Inv (rx : RxUnit) : Prop :=
  (∀ k : Fin 8, (slotAt rx k).Inv) ∧
  (∀ j k : Fin 8, (slotAt rx j).occ = true → (slotAt rx k).occ = true → (slotAt rx j).id = (slotAt rx k).id → j = k)

/-- The invariant of the block. -/
def State.Inv (s : State) : Prop := s.tx.Inv ∧ RxUnit.Inv s.rx

/-- A step is safe if it does not fault; a refused request is the host's (00_scope.md R12). -/
def safeStep (s : State) : Prop := ∀ f : Fault, step s ≠ .fault f

end Sys2Proof.Machine
end

