-- ==== Sys2Proof/Certificates/Slice0/Obligations.lean ====
section
/-! DEFINITION. The statements for the provers. Each formalises rules of spec/ named in its docstring; the helpers in
`Sys2Proof.Claims` are transcriptions of the spec's own tables and notation, written without the model's functions
wherever the spec gives a formula. -/

namespace Sys2Proof.Claims

open Sys2Proof.Machine

/-! ### Notation of the spec -/

/-- A command word `{cmd, sel}` selects an operation, the operands being in its bundle (30_encoding.md R99). How a bundle is
laid out is the model's choice (log 1); here it is any. -/
def Selects (cmd : BitVec 6) (sel : BitVec 8) (i : Instr) : Prop :=
  ∃ ops : Bundle, decode ⟨.cmd (cmd ++ sel), ops⟩ = .ok i

/-- `B[k]`. -/
def at' (B : Bytes) (k : Nat) : Byte := B.getD k 0

/-- The bit at bit offset `p`: bit `7 - (p mod 8)` of byte `p / 8` (30_encoding.md R94). -/
def bit (B : Bytes) (p : Nat) : Bool := (at' B (p / 8)).getLsbD (7 - p % 8)

/-- `B'` is `B` with the bytes `s` at index `i` (40_bit_io.md R120). -/
def WrittenAt (B B' : Bytes) (i : Nat) (s : Bytes) : Prop :=
  B'.length = B.length ∧
    ∀ k < B.length, at' B' k = if i ≤ k ∧ k < i + s.length then at' s (k - i) else at' B k

/-- One class of the catalogue (30_encoding.md R91): message_type, priority (none: the open parameter), SIZE_BYTES. -/
structure CatalogueRow where
  mt : Nat
  priority : Option Nat
  size : Nat
deriving DecidableEq, Repr

/-- The table of 30_encoding.md R91. -/
def catalogue : List CatalogueRow :=
  [⟨0, some 0, 2⟩, ⟨7, some 1, 7⟩, ⟨8, none, 0⟩, ⟨16, some 6, 36⟩, ⟨32, some 5, 5⟩, ⟨33, some 5, 6⟩, ⟨34, some 5, 14⟩,
   ⟨36, some 2, 5⟩, ⟨64, some 2, 1⟩, ⟨65, some 2, 3⟩, ⟨66, some 4, 4⟩, ⟨67, some 2, 1⟩, ⟨68, some 2, 1⟩,
   ⟨69, some 2, 6⟩, ⟨128, some 3, 13⟩, ⟨129, some 3, 31⟩, ⟨130, some 5, 11⟩, ⟨131, some 3, 20⟩, ⟨132, some 3, 19⟩,
   ⟨133, some 5, 16⟩, ⟨160, some 5, 6⟩]

/-- Whether a `sel` is a message_type of the catalogue. -/
def Known (sel : BitVec 8) : Prop := ∃ r ∈ catalogue, r.mt = sel.toNat

/-- Priority of a row, `P_PREUNIX_PRIORITY` where the table has a question mark (41_ext_id.md R142). -/
def CatalogueRow.priorityIn (r : CatalogueRow) (p : Config.Params) : Nat := r.priority.getD p.preUnixPriority.toNat

end Sys2Proof.Claims

open Sys2Proof Sys2Proof.Machine Sys2Proof.Claims

/-! ## The machine and its encodings -/

/-- 10_state.md R38: the values after hardware reset, and of the RX unit after `RX_RESET`. -/
def Obligations.ResetValues : Prop :=
  State.reset.tx.len = 0 ∧ State.reset.tx.offset = 0 ∧ State.reset.tx.toggle = false ∧
  (∀ k : Fin 8, (slotAt State.reset.rx k).occ = false) ∧
  ∀ s : State, ∃ t, exec .rxReset s = .next t ∧ ∀ k : Fin 8, (slotAt t.rx k).occ = false

/-- 00_scope.md R13, 20_memory.md R66: a step takes the next request and performs the operation it decodes to, completely.
That requests wait in the field `requests` is the model's choice (log 1). -/
def Obligations.StepRunsDecoded : Prop :=
  ∀ (s : State) (r : Request) (rest : List Request) (i : Instr), s.requests = r :: rest → decode r = .ok i →
    step s = exec i { s with requests := rest } ∧ i.wellFormed = true

/-- 30_encoding.md R99, 00_scope.md R13: a request that is no operation is refused; the block never acts on its own. That a
step without a request leaves the state as it is, is the model's choice (log 1). -/
def Obligations.StepWithoutOperation : Prop :=
  (∀ (s : State) (r : Request) (rest : List Request) (e : DecodeError), s.requests = r :: rest → decode r = .error e →
    step s = .refused (.request e)) ∧
  ∀ s : State, s.requests = [] → step s = .next s

/-- 30_encoding.md R80, R89, R99: a few words written out bit by bit decode to the operations they stand for. -/
def Obligations.WrittenWordsDecode : Prop :=
  decode ⟨.cmd 0b00000100000000#14, ⟨[0, 0], [0, 7400]⟩⟩ = .ok (.putU16 [0, 0] 0 7400) ∧
  decode ⟨.cmd 0b01001000100000#14, ⟨[], [10, 20]⟩⟩ = .ok (.wireId 32 10 20) ∧
  decode ⟨.cmd 0b11000000100000#14, ⟨[], [10, 0, 2, 0]⟩⟩ = .ok (.packNodeStatus ⟨10, 0, 2, 0⟩) ∧
  decode ⟨.cmd 0b10001000000000#14, ⟨[], []⟩⟩ = .ok .txNext ∧
  decode ⟨.tail 0b01100000#8, ⟨[6, 7, 8], [0x00040001, 1]⟩⟩ = .ok (.frameLast true 0 0x00040001 [6, 7, 8] 1) ∧
  decode ⟨.ident 0b00010100100000001010000000010100#32, ⟨[0, 0, 10, 32, 0, 192], [1000]⟩⟩ =
    .ok (.idNodeStatus ⟨0, 5, 10, 20⟩ [0, 0, 10, 32, 0, 192] 1000)

/-- 30_encoding.md R80, R84, R99: decoding the encoding of a well-formed operation gives it back, every operand at every
value. The bundle that carries the operands is the model's choice (log 1). -/
def Obligations.DecodeOfEncode : Prop :=
  ∀ i : Instr, i.wellFormed = true → decode (encode i) = .ok i

/-- Whether an operation ignores `sel` (30_encoding.md R99). -/
def Sys2Proof.Claims.ignoresSel (cmd : BitVec 6) : Bool :=
  cmd ∈ [0x01, 0x02, 0x03, 0x04, 0x05, 0x06, 0x07, 0x08, 0x09, 0x0A, 0x0B, 0x0C, 0x10, 0x11, 0x18, 0x21, 0x22, 0x28, 0x29]

/-- 30_encoding.md R99 read backwards: no operand of a request is dropped or altered by decoding it, and no bit of its word
but an ignored `sel`; what is decoded is well formed. -/
def Obligations.DecodeKeepsEverything : Prop :=
  ∀ (r : Request) (i : Instr), decode r = .ok i →
    i.wellFormed = true ∧ (encode i).ops = r.ops ∧
    ((encode i).word = r.word ∨
      ∃ (c : BitVec 6) (sel : BitVec 8), ignoresSel c = true ∧ r.word = .cmd (c ++ sel) ∧ (encode i).word = .cmd (c ++ 0#8))

/-- 30_encoding.md R99: an unassigned `cmd` is refused, and so is a `PACK` or `UNPACK` outside the catalogue, and a
sub-record form with `sel` above 1, whatever the operands; and an identifier that the table has no row for (R91, R92) is
no operation by itself (log 4). -/
def Obligations.UnassignedWordsRefused : Prop :=
  ∀ ops : Bundle,
    (∀ (c : BitVec 6) (sel : BitVec 8), ignoresSel c = false → c ∉ [0x12, 0x19, 0x1A, 0x20, 0x30, 0x31, 0x32, 0x33] →
      decode ⟨.cmd (c ++ sel), ops⟩ = .error .unassignedCmd) ∧
    (∀ sel : BitVec 8, ¬ Known sel →
      decode ⟨.cmd (0x30#6 ++ sel), ops⟩ = .error .noSuchClass ∧
      decode ⟨.cmd (0x31#6 ++ sel), ops⟩ = .error .noSuchClass) ∧
    (∀ sel : BitVec 8, 1 < sel.toNat →
      decode ⟨.cmd (0x32#6 ++ sel), ops⟩ = .error .noSuchClass ∧
      decode ⟨.cmd (0x33#6 ++ sel), ops⟩ = .error .noSuchClass) ∧
    (∀ id : BitVec 32, ¬ Known (id.extractLsb 25 18) → id.extractLsb 25 18 ≠ 255#8 →
      decode ⟨.ident id, ops⟩ = .error .noIdentRow)

/-! ## Bit I/O -/

namespace Sys2Proof.Claims

/-- A `PUT_Un` rule: its command word with any `sel`, its refusal, and its bytes; nothing but the result changes. -/
def PutRule {w : Nat} (cmd : BitVec 6) (n : Nat) (mk : Bytes → Nat → BitVec w → Instr) (bytes : BitVec w → Bytes) :
    Prop :=
  ∀ (B : Bytes) (i : Nat) (v : BitVec w),
    (∀ sel, Selects cmd sel (mk B i v)) ∧
    ∀ s : State,
      (B.length < i + n → exec (mk B i v) s = .refused .outsideBuffer) ∧
      (i + n ≤ B.length → ∃ B', WrittenAt B B' i (bytes v) ∧ exec (mk B i v) s = .next { s with result := .bytes B' })

/-- A `GET_Un` rule: its command word with any `sel`, its refusal, and its value; nothing but the result changes. -/
def GetRule (cmd : BitVec 6) (n : Nat) (mk : Bytes → Nat → Instr) (value : Bytes → Nat → Result) : Prop :=
  ∀ (B : Bytes) (i : Nat),
    (∀ sel, Selects cmd sel (mk B i)) ∧
    ∀ s : State,
      (B.length < i + n → exec (mk B i) s = .refused .outsideBuffer) ∧
      (i + n ≤ B.length → exec (mk B i) s = .next { s with result := value B i })

end Sys2Proof.Claims

/-- 40_bit_io.md R121 to R125: the five fixed-width writes, big-endian. -/
def Obligations.PutFixedWidth : Prop :=
  PutRule 0x01 2 .putU16 (fun v => [v.extractLsb 15 8, v.extractLsb 7 0]) ∧
  PutRule 0x02 3 .putU24 (fun v => [v.extractLsb 23 16, v.extractLsb 15 8, v.extractLsb 7 0]) ∧
  PutRule 0x03 4 .putU32 (fun v => [v.extractLsb 31 24, v.extractLsb 23 16, v.extractLsb 15 8, v.extractLsb 7 0]) ∧
  PutRule 0x04 7 .putU56 (fun v => [v.extractLsb 55 48, v.extractLsb 47 40, v.extractLsb 39 32, v.extractLsb 31 24,
    v.extractLsb 23 16, v.extractLsb 15 8, v.extractLsb 7 0]) ∧
  PutRule 0x05 8 .putU64 (fun v => [v.extractLsb 63 56, v.extractLsb 55 48, v.extractLsb 47 40, v.extractLsb 39 32,
    v.extractLsb 31 24, v.extractLsb 23 16, v.extractLsb 15 8, v.extractLsb 7 0])

/-- 40_bit_io.md R126 to R130: the five fixed-width reads, big-endian. -/
def Obligations.GetFixedWidth : Prop :=
  GetRule 0x06 2 .getU16 (fun B i => .u16 (at' B i ++ at' B (i + 1))) ∧
  GetRule 0x07 3 .getU24 (fun B i => .u24 (at' B i ++ at' B (i + 1) ++ at' B (i + 2))) ∧
  GetRule 0x08 4 .getU32 (fun B i => .u32 (at' B i ++ at' B (i + 1) ++ at' B (i + 2) ++ at' B (i + 3))) ∧
  GetRule 0x09 7 .getU56 (fun B i => .u56 (at' B i ++ at' B (i + 1) ++ at' B (i + 2) ++ at' B (i + 3) ++
    at' B (i + 4) ++ at' B (i + 5) ++ at' B (i + 6))) ∧
  GetRule 0x0A 8 .getU64 (fun B i => .u64 (at' B i ++ at' B (i + 1) ++ at' B (i + 2) ++ at' B (i + 3) ++
    at' B (i + 4) ++ at' B (i + 5) ++ at' B (i + 6) ++ at' B (i + 7)))

/-- 40_bit_io.md R131: `PUT_BITS` writes the bits of the field, most significant first, and no other bit. -/
def Obligations.PutBits : Prop :=
  ∀ (B : Bytes) (o w v : Nat), v < 2 ^ w →
    (w ≤ 64 → ∀ sel, Selects 0x0B sel (.putBits B o w v)) ∧
    ∀ s : State,
      (w < 1 ∨ 64 < w → exec (.putBits B o w v) s = .refused .badWidth) ∧
      (1 ≤ w → w ≤ 64 → 8 * B.length < o + w → exec (.putBits B o w v) s = .refused .outsideBuffer) ∧
      (1 ≤ w → w ≤ 64 → o + w ≤ 8 * B.length →
        ∃ B', exec (.putBits B o w v) s = .next { s with result := .bytes B' } ∧ B'.length = B.length ∧
          (∀ j < w, bit B' (o + j) = v.testBit (w - 1 - j)) ∧
          ∀ p < 8 * B.length, p < o ∨ o + w ≤ p → bit B' p = bit B p)

/-- 40_bit_io.md R132: `GET_BITS` reads the bits of the field, most significant first. -/
def Obligations.GetBits : Prop :=
  ∀ (B : Bytes) (o w : Nat),
    (∀ sel, Selects 0x0C sel (.getBits B o w)) ∧
    ∀ s : State,
      (w < 1 ∨ 64 < w → exec (.getBits B o w) s = .refused .badWidth) ∧
      (1 ≤ w → w ≤ 64 → 8 * B.length < o + w → exec (.getBits B o w) s = .refused .outsideBuffer) ∧
      (1 ≤ w → w ≤ 64 → o + w ≤ 8 * B.length →
        ∃ v < 2 ^ w, (∀ j < w, v.testBit (w - 1 - j) = bit B (o + j)) ∧
          exec (.getBits B o w) s = .next { s with result := .bits w v })

namespace Sys2Proof.Claims

/-- The round trip of one width (40_bit_io.md R133). -/
def FixedRoundTrip {w : Nat} (n : Nat) (put : Bytes → Nat → BitVec w → Instr) (get : Bytes → Nat → Instr)
    (res : BitVec w → Result) : Prop :=
  ∀ (B : Bytes) (i : Nat) (v : BitVec w) (s : State), i + n ≤ B.length →
    ∃ B', exec (put B i v) s = .next { s with result := .bytes B' } ∧
      exec (get B' i) s = .next { s with result := res v } ∧
      ∀ k, k < i ∨ i + n ≤ k → B'[k]? = B[k]?

/-- One width as a bit field (40_bit_io.md R134). -/
def FixedIsBits {w : Nat} (put : Bytes → Nat → BitVec w → Instr) (get : Bytes → Nat → Instr)
    (res : BitVec w → Result) : Prop :=
  ∀ (B : Bytes) (i : Nat) (s : State),
    (∀ v, exec (put B i v) s = exec (.putBits B (8 * i) w v.toNat) s) ∧
    ((∃ v, exec (get B i) s = .next { s with result := res v } ∧
        exec (.getBits B (8 * i) w) s = .next { s with result := .bits w v.toNat }) ∨
     (exec (get B i) s = .refused .outsideBuffer ∧ exec (.getBits B (8 * i) w) s = .refused .outsideBuffer))

end Sys2Proof.Claims

/-- 40_bit_io.md R133 (laws the spec derives from R121 to R132): reading what was written gives it back, and a write
changes nothing outside its field. -/
def Obligations.BitIoRoundTrip : Prop :=
  FixedRoundTrip 2 .putU16 .getU16 .u16 ∧ FixedRoundTrip 3 .putU24 .getU24 .u24 ∧
  FixedRoundTrip 4 .putU32 .getU32 .u32 ∧ FixedRoundTrip 7 .putU56 .getU56 .u56 ∧
  FixedRoundTrip 8 .putU64 .getU64 .u64 ∧
  ∀ (B : Bytes) (o w v : Nat) (s : State), 1 ≤ w → w ≤ 64 → v < 2 ^ w → o + w ≤ 8 * B.length →
    ∃ B', exec (.putBits B o w v) s = .next { s with result := .bytes B' } ∧
      exec (.getBits B' o w) s = .next { s with result := .bits w v } ∧
      ∀ p, p < o ∨ o + w ≤ p → bit B' p = bit B p

/-- 40_bit_io.md R134 (the spec derives it from R121 to R132): the fixed-width primitives are bit fields at byte
boundaries. -/
def Obligations.FixedWidthIsBits : Prop :=
  FixedIsBits .putU16 .getU16 .u16 ∧ FixedIsBits .putU24 .getU24 .u24 ∧ FixedIsBits .putU32 .getU32 .u32 ∧
  FixedIsBits .putU56 .getU56 .u56 ∧ FixedIsBits .putU64 .getU64 .u64

/-! ## Identifiers -/

/-- 41_ext_id.md R140: every field is masked to its width and put in its place. -/
def Obligations.MakeId : Prop :=
  ∀ p mt nt ni : BitVec 32,
    (∀ sel, Selects 0x10 sel (.makeId p mt nt ni)) ∧
    ∀ s : State, ∃ id : BitVec 32, exec (.makeId p mt nt ni) s = .next { s with result := .u32 id } ∧
      id.toNat = p.toNat % 8 * 2 ^ 26 + mt.toNat % 256 * 2 ^ 18 + nt.toNat % 64 * 2 ^ 12 + ni.toNat % 4096

/-- 41_ext_id.md R141 (three of its four lines are the spec's own inference): the fields of an identifier; bits 31..29 are
ignored. -/
def Obligations.SplitId : Prop :=
  ∀ id : BitVec 32,
    (∀ sel, Selects 0x11 sel (.splitId id)) ∧
    ∀ s : State, ∃ p mt nt ni, exec (.splitId id) s = .next { s with result := .idFields p mt nt ni } ∧
      p.toNat = id.toNat / 2 ^ 26 % 8 ∧ mt.toNat = id.toNat / 2 ^ 18 % 256 ∧ nt.toNat = id.toNat / 2 ^ 12 % 64 ∧
      ni.toNat = id.toNat % 4096

/-- 41_ext_id.md R143: the two operations are inverse to each other on the fields and on identifiers of 29 bits, and
distinct fields give distinct identifiers. -/
def Obligations.IdentifierLaws : Prop :=
  (∀ (p : BitVec 3) (mt : BitVec 8) (nt : BitVec 6) (ni : BitVec 12) (s : State),
    ∃ id : BitVec 32,
      exec (.makeId (p.setWidth 32) (mt.setWidth 32) (nt.setWidth 32) (ni.setWidth 32)) s =
        .next { s with result := .u32 id } ∧
      id.toNat < 2 ^ 29 ∧ exec (.splitId id) s = .next { s with result := .idFields p mt nt ni }) ∧
  (∀ (id : BitVec 32) (s : State), id.toNat < 2 ^ 29 →
    ∃ p mt nt ni, exec (.splitId id) s = .next { s with result := .idFields p mt nt ni } ∧
      exec (.makeId (p.setWidth 32) (mt.setWidth 32) (nt.setWidth 32) (ni.setWidth 32)) s =
        .next { s with result := .u32 id }) ∧
  (∀ (p p' : BitVec 3) (mt mt' : BitVec 8) (nt nt' : BitVec 6) (ni ni' : BitVec 12) (s : State),
    exec (.makeId (p.setWidth 32) (mt.setWidth 32) (nt.setWidth 32) (ni.setWidth 32)) s =
      exec (.makeId (p'.setWidth 32) (mt'.setWidth 32) (nt'.setWidth 32) (ni'.setWidth 32)) s →
    p = p' ∧ mt = mt' ∧ nt = nt' ∧ ni = ni')

/-- 41_ext_id.md R142: the identifier of a class is `MAKE_ID` of the class's priority and number; refused outside the
catalogue. -/
def Obligations.WireId : Prop :=
  ∀ (sel : BitVec 8) (nt ni : BitVec 32),
    Selects 0x12 sel (.wireId sel nt ni) ∧
    ∀ s : State,
      (¬ Known sel → exec (.wireId sel nt ni) s = .refused .unknownClass) ∧
      ∀ r ∈ catalogue, r.mt = sel.toNat →
        ∃ id, exec (.makeId (BitVec.ofNat 32 (r.priorityIn s.params)) (BitVec.ofNat 32 sel.toNat) nt ni) s =
            .next { s with result := .u32 id } ∧
          exec (.wireId sel nt ni) s = .next { s with result := .u32 id }

/-! ## CRC, size and dispatch -/

namespace Sys2Proof.Claims

/-- The bits of a byte sequence, most significant bit of each byte first. -/
def bitsOf (s : Bytes) : List Bool := s.flatMap fun b => (List.range 8).map fun j => b.getLsbD (7 - j)

/-- One bit into the CRC register: polynomial 0x1021, most significant bit first. -/
def crcBit (c : BitVec 16) (b : Bool) : BitVec 16 := if c.getLsbD 15 != b then (c <<< 1) ^^^ 0x1021#16 else c <<< 1

/-- The CRC bit by bit, from the parameters of 43_crc16.md R230. -/
def crcSerial (s : Bytes) : BitVec 16 := (bitsOf s).foldl crcBit 0xFFFF#16

end Sys2Proof.Claims

/-- 43_crc16.md R230, R231, R232: the unit computes the bit-serial CRC of the parameters. The algorithm is the spec's own
reading of them, from general knowledge (log 10). -/
def Obligations.Crc16IsBitSerial : Prop :=
  ∀ B : Bytes, B.length ≤ 256 →
    (∀ sel, Selects 0x18 sel (.crc16 B)) ∧
    ∀ s : State, exec (.crc16 B) s = .next { s with result := .u16 (crcSerial B) }

/-- 43_crc16.md R235 (general knowledge in the spec itself, G2): two byte sequences of one length that differ in exactly one
bit have different CRCs. -/
def Obligations.CrcTellsOneBit : Prop :=
  ∀ (A B : Bytes) (p : Nat) (s : State), A.length = B.length → p < 8 * A.length → bit A p ≠ bit B p →
    (∀ q, q ≠ p → bit A q = bit B q) →
    ∃ a b, exec (.crc16 A) s = .next { s with result := .u16 a } ∧
      exec (.crc16 B) s = .next { s with result := .u16 b } ∧ a ≠ b

/-- 42_message_codecs.md R154: `SIZE_BYTES` of a class of the catalogue, none for any other `sel`. -/
def Obligations.SizeOf : Prop :=
  ∀ sel : BitVec 8,
    Selects 0x19 sel (.sizeOf sel) ∧
    ∀ s : State,
      (¬ Known sel → exec (.sizeOf sel) s = .next { s with result := .size none }) ∧
      ∀ r ∈ catalogue, r.mt = sel.toNat → exec (.sizeOf sel) s = .next { s with result := .size (some r.size) }

/-- 42_message_codecs.md R155, R156, with the constraints of 00_scope.md R7: none for an unknown type; some of the pair at
the exact length; at any other length what `P_ACCEPT_LEN` says, a function of type and length, by default
`len >= SIZE_BYTES`. -/
def Obligations.Decode : Prop :=
  ∀ (sel : BitVec 8) (B : Bytes), B.length ≤ 256 →
    Selects 0x1A sel (.decode sel B) ∧
    ∀ s : State,
      (¬ Known sel → exec (.decode sel B) s = .next { s with result := .decoded none }) ∧
      ∀ r ∈ catalogue, r.mt = sel.toNat →
        (B.length = r.size → exec (.decode sel B) s = .next { s with result := .decoded (some ⟨sel, B⟩) }) ∧
        (s.params.acceptLenDepartures = [] → B.length < r.size →
          exec (.decode sel B) s = .next { s with result := .decoded none }) ∧
        (s.params.acceptLenDepartures = [] → r.size ≤ B.length →
          exec (.decode sel B) s = .next { s with result := .decoded (some ⟨sel, B⟩) }) ∧
        ((∀ (s' : State) (B' : Bytes), s'.params = s.params → B'.length = B.length →
            exec (.decode sel B') s' = .next { s' with result := .decoded (some ⟨sel, B'⟩) }) ∨
         (∀ (s' : State) (B' : Bytes), s'.params = s.params → B'.length = B.length →
            exec (.decode sel B') s' = .next { s' with result := .decoded none }))

/-! ## The message codecs -/

namespace Sys2Proof.Claims

/-- A `PACK` rule: its command word, and the body it gives; nothing but the result changes (42_message_codecs.md R151). -/
def Packs (cmd : BitVec 6) (sel : BitVec 8) (i : Instr) (body : Bytes) : Prop :=
  Selects cmd sel i ∧ ∀ s : State, exec i s = .next { s with result := .bytes body }

/-- An `UNPACK` rule: its command word, refusal of a short body, and the view; nothing but the result changes
(42_message_codecs.md R152). -/
def Unpacks (cmd : BitVec 6) (sel : BitVec 8) (size : Nat) (mk : Bytes → Instr) (view : Bytes → Result) : Prop :=
  ∀ B : Bytes, Selects cmd sel (mk B) ∧
    ∀ s : State,
      (B.length < size → exec (mk B) s = .refused .bodyTooShort) ∧
      (size ≤ B.length → exec (mk B) s = .next { s with result := view B })

/-- A class carried as opaque bytes (42_message_codecs.md R150). -/
def Opaque (sel : BitVec 8) (size : Nat) (pack unpack : Bytes → Instr) : Prop :=
  (∀ body : Bytes, Selects 0x30 sel (pack body) ∧
    ∀ s : State,
      (body.length ≠ size → exec (pack body) s = .refused .badBodyLength) ∧
      (body.length = size → exec (pack body) s = .next { s with result := .bytes body })) ∧
  Unpacks 0x31 sel size unpack (fun B => .bytes (B.take size))

/-- One bit, 1 for true (42_message_codecs.md R153). -/
def one (b : Bool) : BitVec 1 := if b then 1#1 else 0#1

/-- A `u16` big-endian. -/
def be16 (v : BitVec 16) : Bytes := [v.extractLsb 15 8, v.extractLsb 7 0]

/-- A `u32` big-endian. -/
def be32 (v : BitVec 32) : Bytes := [v.extractLsb 31 24, v.extractLsb 23 16, v.extractLsb 15 8, v.extractLsb 7 0]

/-- A `u56` big-endian. -/
def be56 (v : BitVec 56) : Bytes :=
  [v.extractLsb 55 48, v.extractLsb 47 40, v.extractLsb 39 32, v.extractLsb 31 24, v.extractLsb 23 16,
   v.extractLsb 15 8, v.extractLsb 7 0]

/-- The `u16` at byte `k`. -/
def u16At (B : Bytes) (k : Nat) : BitVec 16 := at' B k ++ at' B (k + 1)

/-- The `u32` at byte `k`. -/
def u32At (B : Bytes) (k : Nat) : BitVec 32 := at' B k ++ at' B (k + 1) ++ at' B (k + 2) ++ at' B (k + 3)

/-- The `u56` at byte `k`. -/
def u56At (B : Bytes) (k : Nat) : BitVec 56 :=
  at' B k ++ at' B (k + 1) ++ at' B (k + 2) ++ at' B (k + 3) ++ at' B (k + 4) ++ at' B (k + 5) ++ at' B (k + 6)

end Sys2Proof.Claims

/-- 42_message_codecs.md R160, R161 (`RESET`), R182, R183 (`PAYLOAD_EPS_OUTPUT_OVERWRITE`), R184, R185 (`ACK`): the three
classes with a 12-bit `node_id` split over bytes. -/
def Obligations.CodecsWithNodeId : Prop :=
  (∀ v : ResetFields, Packs 0x30 0 (.packReset v)
    [v.nodeId.extractLsb 11 4, v.nodeId.extractLsb 3 0 ++ one v.resetAll ++ one v.intoBootloader ++ 0#2]) ∧
  Unpacks 0x31 0 2 .unpackReset (fun B => .reset
    { nodeId := at' B 0 ++ (at' B 1).extractLsb 7 4
      resetAll := (at' B 1).getLsbD 3
      intoBootloader := (at' B 1).getLsbD 2 }) ∧
  (∀ v : PayloadEpsOutputOverwriteFields,
    Packs 0x30 65 (.packPayloadEpsOutputOverwrite v)
      [v.out1 ++ v.out2 ++ v.out3 ++ v.nodeId.extractLsb 11 10, v.nodeId.extractLsb 9 2,
       v.nodeId.extractLsb 1 0 ++ 0#6]) ∧
  Unpacks 0x31 65 3 .unpackPayloadEpsOutputOverwrite (fun B => .payloadEpsOutputOverwrite
    { out1 := (at' B 0).extractLsb 7 6
      out2 := (at' B 0).extractLsb 5 4
      out3 := (at' B 0).extractLsb 3 2
      nodeId := (at' B 0).extractLsb 1 0 ++ at' B 1 ++ (at' B 2).extractLsb 7 6 }) ∧
  (∀ v : AckFields, Packs 0x30 66 (.packAck v)
    (be16 v.crc ++ [v.nodeId.extractLsb 11 4, v.nodeId.extractLsb 3 0 ++ 0#4])) ∧
  Unpacks 0x31 66 4 .unpackAck (fun B => .ack
    { crc := u16At B 0
      nodeId := at' B 2 ++ (at' B 3).extractLsb 7 4 })

/-- 42_message_codecs.md R168, R169 (`NODE_STATUS`), R178, R179 (`VL_STATUS`). -/
def Obligations.CodecsOfStatus : Prop :=
  (∀ v : NodeStatusFields,
    Packs 0x30 32 (.packNodeStatus v)
      [v.uptimeS.extractLsb 23 16, v.uptimeS.extractLsb 15 8, v.uptimeS.extractLsb 7 0,
       v.health ++ v.mode ++ v.customStatusRaw.extractLsb 10 7, v.customStatusRaw.extractLsb 6 0 ++ 0#1]) ∧
  Unpacks 0x31 32 5 .unpackNodeStatus (fun B => .nodeStatus
    { uptimeS := at' B 0 ++ at' B 1 ++ at' B 2
      health := (at' B 3).extractLsb 7 6
      mode := (at' B 3).extractLsb 5 4
      customStatusRaw := (at' B 3).extractLsb 3 0 ++ (at' B 4).extractLsb 7 1 }) ∧
  (∀ v : VlStatusFields, Packs 0x30 36 (.packVlStatus v)
    ([v.flightStage] ++ be16 v.batteryMv ++ [0, 0])) ∧
  Unpacks 0x31 36 5 .unpackVlStatus (fun B => .vlStatus { flightStage := at' B 0, batteryMv := u16At B 1 })

/-- 42_message_codecs.md R180, R181 (`AMP_CONTROL`), R172, R173 (`AMP_OUT_STATUS`). -/
def Obligations.CodecsOfAmp : Prop :=
  (∀ v : AmpControlFields,
    Packs 0x30 64 (.packAmpControl v)
      [one v.enable1 ++ one v.enable2 ++ one v.enable3 ++ one v.enable4 ++ 0#4]) ∧
  Unpacks 0x31 64 1 .unpackAmpControl (fun B => .ampControl
    { enable1 := (at' B 0).getLsbD 7
      enable2 := (at' B 0).getLsbD 6
      enable3 := (at' B 0).getLsbD 5
      enable4 := (at' B 0).getLsbD 4 }) ∧
  (∀ v : AmpOutStatusFields, Packs 0x32 0 (.packAmpOutStatus v)
    [one v.overwrote ++ v.status ++ 0#5]) ∧
  Unpacks 0x33 0 1 .unpackAmpOutStatus (fun B => .ampOutStatus
    { overwrote := (at' B 0).getLsbD 7
      status := (at' B 0).extractLsb 6 5 })

/-- 42_message_codecs.md R176, R177 (`EPS_OUT_STATUS`), R190, R191 (`AIR_BRAKES_CONTROL`), R198, R199 (`ROCKET_STATE`). -/
def Obligations.CodecsOfRocket : Prop :=
  (∀ v : EpsOutStatusFields,
    Packs 0x32 1 (.packEpsOutStatus v)
      [v.currentMa.extractLsb 12 5, v.currentMa.extractLsb 4 0 ++ one v.overwrote ++ v.status]) ∧
  Unpacks 0x33 1 2 .unpackEpsOutStatus (fun B => .epsOutStatus
    { currentMa := at' B 0 ++ (at' B 1).extractLsb 7 3
      overwrote := (at' B 1).getLsbD 2
      status := (at' B 1).extractLsb 1 0 }) ∧
  (∀ v : AirBrakesControlFields, Packs 0x30 69 (.packAirBrakesControl v)
    (be16 v.extensionRaw ++ [0, 0, 0, 0])) ∧
  Unpacks 0x31 69 6 .unpackAirBrakesControl (fun B => .airBrakesControl { extensionRaw := u16At B 0 }) ∧
  (∀ v : RocketStateFields,
    Packs 0x30 131 (.packRocketState v)
      (be32 v.velocity1 ++ be32 v.velocity2 ++ be32 v.altitude ++ be56 v.timestampUs ++ [one v.isCoasting ++ 0#7])) ∧
  Unpacks 0x31 131 20 .unpackRocketState (fun B => .rocketState
    { velocity1 := u32At B 0
      velocity2 := u32At B 4
      altitude := u32At B 8
      timestampUs := u56At B 12
      isCoasting := (at' B 19).getLsbD 7 })

/-- 42_message_codecs.md R166, R167 (`DATA_TRANSFER`), R186, R187 (`AMP_OVERWRITE`), R164, R165 (`PRE_UNIX_TIME`). That
`data_len` and `sequence_number` are one byte each (R166), and the places of `out2` and `out3` (R186), are the spec's
inferences. -/
def Obligations.CodecsPartlyInferred : Prop :=
  (∀ v : AmpOverwriteFields,
    Packs 0x30 67 (.packAmpOverwrite v)
      [v.out1 ++ v.out2 ++ v.out3 ++ v.out4]) ∧
  Unpacks 0x31 67 1 .unpackAmpOverwrite (fun B => .ampOverwrite
    { out1 := (at' B 0).extractLsb 7 6
      out2 := (at' B 0).extractLsb 5 4
      out3 := (at' B 0).extractLsb 3 2
      out4 := (at' B 0).extractLsb 1 0 }) ∧
  (∀ v : DataTransferFields,
    Packs 0x30 16 (.packDataTransfer v)
      (v.data.toList ++ [v.dataLen, v.sequenceNumber,
        one v.startOfTransfer ++ one v.endOfTransfer ++ v.dataType ++ v.destinationNodeId.extractLsb 11 8,
        v.destinationNodeId.extractLsb 7 0])) ∧
  Unpacks 0x31 16 36 .unpackDataTransfer (fun B => .dataTransfer
    { data := Vector.ofFn fun j : Fin 32 => at' B j
      dataLen := at' B 32
      sequenceNumber := at' B 33
      startOfTransfer := (at' B 34).getLsbD 7
      endOfTransfer := (at' B 34).getLsbD 6
      dataType := (at' B 34).extractLsb 5 4
      destinationNodeId := (at' B 34).extractLsb 3 0 ++ at' B 35 }) ∧
  Packs 0x30 8 .packPreUnixTime [] ∧
  Unpacks 0x31 8 0 .unpackPreUnixTime (fun _ => .preUnixTime)

/-- 42_message_codecs.md R162, R163, R170, R171, R174, R175, R188, R189, R204, R205: five of the ten classes whose body is
opaque bytes. -/
def Obligations.OpaqueStatusCodecs : Prop :=
  Opaque 7 7 .packUnixTime .unpackUnixTime ∧
  Opaque 33 6 .packAmpStatus .unpackAmpStatus ∧
  Opaque 34 14 .packPayloadEpsStatus .unpackPayloadEpsStatus ∧
  Opaque 68 1 .packAmpResetOutput .unpackAmpResetOutput ∧
  Opaque 160 6 .packIcarusStatus .unpackIcarusStatus

/-- 42_message_codecs.md R192 to R197, R200 to R203: the other five. -/
def Obligations.OpaqueMeasurementCodecs : Prop :=
  Opaque 128 13 .packBaroMeasurement .unpackBaroMeasurement ∧
  Opaque 129 31 .packImuMeasurement .unpackImuMeasurement ∧
  Opaque 130 11 .packBrightnessMeasurement .unpackBrightnessMeasurement ∧
  Opaque 132 19 .packMagMeasurement .unpackMagMeasurement ∧
  Opaque 133 16 .packOzysMeasurement .unpackOzysMeasurement

namespace Sys2Proof.Claims

/-- The laws of one class (42_message_codecs.md R206): unpacking what was packed gives the fields back; packing what was
unpacked gives the body back exactly when it has its class's length and its padding (the bits of the masks) is zero. -/
def RoundTrips {α : Type} (pack : α → Instr) (unpack : Bytes → Instr) (view : α → Result) (size : Nat)
    (padding : Nat → Byte) : Prop :=
  ∀ s : State,
    (∀ v, ∃ b, exec (pack v) s = .next { s with result := .bytes b } ∧
      exec (unpack b) s = .next { s with result := view v }) ∧
    ∀ (B : Bytes) (v : α), exec (unpack B) s = .next { s with result := view v } →
      (exec (pack v) s = .next { s with result := .bytes B } ↔
        B.length = size ∧ ∀ k < size, at' B k &&& padding k = 0)

/-- The laws of an opaque class (42_message_codecs.md R206). -/
def OpaqueRoundTrips (pack unpack : Bytes → Instr) (size : Nat) : Prop :=
  ∀ s : State,
    (∀ body : Bytes, body.length = size → exec (pack body) s = .next { s with result := .bytes body } ∧
      exec (unpack body) s = .next { s with result := .bytes body }) ∧
    ∀ B b : Bytes, exec (unpack B) s = .next { s with result := .bytes b } →
      (exec (pack b) s = .next { s with result := .bytes B } ↔ B.length = size)

/-- No padding. -/
def noPadding (_ : Nat) : Byte := 0

end Sys2Proof.Claims

/-- 42_message_codecs.md R206 (the converse is the spec's inference from R151, R152): `PACK` and `UNPACK` are inverse to each
other, padding apart, for every class and sub-record. -/
def Obligations.CodecRoundTrip : Prop :=
  RoundTrips .packReset .unpackReset .reset 2 (fun k => if k = 1 then 0x03 else 0) ∧
  RoundTrips .packDataTransfer .unpackDataTransfer .dataTransfer 36 noPadding ∧
  RoundTrips .packNodeStatus .unpackNodeStatus .nodeStatus 5 (fun k => if k = 4 then 0x01 else 0) ∧
  RoundTrips .packVlStatus .unpackVlStatus .vlStatus 5 (fun k => if 3 ≤ k then 0xFF else 0) ∧
  RoundTrips .packAmpControl .unpackAmpControl .ampControl 1 (fun _ => 0x0F) ∧
  RoundTrips .packPayloadEpsOutputOverwrite .unpackPayloadEpsOutputOverwrite .payloadEpsOutputOverwrite 3
    (fun k => if k = 2 then 0x3F else 0) ∧
  RoundTrips .packAck .unpackAck .ack 4 (fun k => if k = 3 then 0x0F else 0) ∧
  RoundTrips .packAmpOverwrite .unpackAmpOverwrite .ampOverwrite 1 noPadding ∧
  RoundTrips .packAirBrakesControl .unpackAirBrakesControl .airBrakesControl 6 (fun k => if 2 ≤ k then 0xFF else 0) ∧
  RoundTrips .packRocketState .unpackRocketState .rocketState 20 (fun k => if k = 19 then 0x7F else 0) ∧
  RoundTrips .packAmpOutStatus .unpackAmpOutStatus .ampOutStatus 1 (fun _ => 0x1F) ∧
  RoundTrips .packEpsOutStatus .unpackEpsOutStatus .epsOutStatus 2 noPadding ∧
  RoundTrips (fun _ : Unit => .packPreUnixTime) .unpackPreUnixTime (fun _ => .preUnixTime) 0 noPadding ∧
  OpaqueRoundTrips .packUnixTime .unpackUnixTime 7 ∧
  OpaqueRoundTrips .packAmpStatus .unpackAmpStatus 6 ∧
  OpaqueRoundTrips .packPayloadEpsStatus .unpackPayloadEpsStatus 14 ∧
  OpaqueRoundTrips .packAmpResetOutput .unpackAmpResetOutput 1 ∧
  OpaqueRoundTrips .packBaroMeasurement .unpackBaroMeasurement 13 ∧
  OpaqueRoundTrips .packImuMeasurement .unpackImuMeasurement 31 ∧
  OpaqueRoundTrips .packBrightnessMeasurement .unpackBrightnessMeasurement 11 ∧
  OpaqueRoundTrips .packMagMeasurement .unpackMagMeasurement 19 ∧
  OpaqueRoundTrips .packOzysMeasurement .unpackOzysMeasurement 16 ∧
  OpaqueRoundTrips .packIcarusStatus .unpackIcarusStatus 6

/-- The `sel` a `PACK.<class>` of the catalogue is selected by (30_encoding.md R99). -/
def Sys2Proof.Claims.packedClass : Request → Option (BitVec 8)
  | ⟨.cmd w, _⟩ => if w.extractLsb' 8 6 = 0x30#6 then some (w.extractLsb' 0 8) else none
  | _ => none

/-- 42_message_codecs.md R207: whatever a `PACK` of a class gives is exactly `SIZE_BYTES` bytes. -/
def Obligations.PackedLength : Prop :=
  ∀ (r : Request) (i : Instr) (sel : BitVec 8) (s t : State), decode r = .ok i → packedClass r = some sel →
    exec i s = .next t →
    ∃ b : Bytes, t = { s with result := .bytes b } ∧ ∃ row ∈ catalogue, row.mt = sel.toNat ∧ b.length = row.size

/-! ## The TX unit -/

namespace Sys2Proof.Claims

/-- A transfer whose body is loaded: `tx_buf[0..tx_len]` holds it. -/
def Loaded (t : TxUnit) (body : Bytes) : Prop :=
  body.length = t.len.val ∧ ∀ k < t.len.val, Memory.read t.buf k = at' body k

/-- A tail byte `(SOT << 7) | (EOT << 6) | (TOG << 5)` with its reserved bits (30_encoding.md R84). -/
def tail (sot eot tog : Bool) (reserved : BitVec 5) : Byte := one sot ++ one eot ++ one tog ++ reserved

end Sys2Proof.Claims

/-- 44_tx_encoder.md R240: what `TX_LOAD` refuses, and every register it writes; the bytes of `tx_buf` from `tx_len` on, the
RX unit and the parameters are as before. -/
def Obligations.TxLoad : Prop :=
  ∀ (sel : BitVec 8) (body : Bytes) (nt : BitVec 6) (ni : BitVec 12),
    Selects 0x20 sel (.txLoad sel body nt ni) ∧
    ∀ s : State,
      (¬ Known sel → exec (.txLoad sel body nt ni) s = .refused .unknownClass) ∧
      ∀ r ∈ catalogue, r.mt = sel.toNat →
        (body.length ≠ r.size → exec (.txLoad sel body nt ni) s = .refused .badBodyLength) ∧
        (body.length = r.size → ∃ t id c,
          exec (.txLoad sel body nt ni) s = .next { s with tx := t, result := .nothing } ∧
          exec (.wireId sel (nt.setWidth 32) (ni.setWidth 32)) s = .next { s with result := .u32 id } ∧
          exec (.crc16 body) s = .next { s with result := .u16 c } ∧
          t.id.toNat = id.toNat ∧ t.len.val = r.size ∧ Loaded t body ∧
          (∀ k, r.size ≤ k → Memory.read t.buf k = Memory.read s.tx.buf k) ∧
          t.crc = c ∧ t.offset.val = 0 ∧ t.toggle = false)

/-- 44_tx_encoder.md R241, R250 and 10_state.md R23: `TX_HAS_NEXT` answers `tx_offset < tx_len`, and `TX_NEXT` is refused
when it is false. -/
def Obligations.TxHasNext : Prop :=
  (∀ sel, Selects 0x21 sel .txHasNext) ∧
  (∀ sel, Selects 0x22 sel .txNext) ∧
  ∀ s : State,
    (s.tx.offset.val < s.tx.len.val → exec .txHasNext s = .next { s with result := .hasNext true }) ∧
    (s.tx.len.val ≤ s.tx.offset.val → exec .txHasNext s = .next { s with result := .hasNext false } ∧
      exec .txNext s = .refused .nothingToSend)

/-- 44_tx_encoder.md R243 (SINGLE), R244 (FIRST): the frame at the start of a transfer, and the registers it leaves. The
identifier is `tx_id` (R247); nothing else changes. -/
def Obligations.TxNextAtStart : Prop :=
  ∀ (s : State) (body : Bytes), Loaded s.tx body → s.tx.offset.val = 0 →
    (1 ≤ s.tx.len.val → s.tx.len.val ≤ 7 →
      exec .txNext s =
        .next { s with tx := { s.tx with offset := s.tx.len }, result := .frame s.tx.id (body ++ [0xC0]) }) ∧
    (8 ≤ s.tx.len.val →
      exec .txNext s =
        .next { s with
          tx := { s.tx with offset := 5, toggle := !s.tx.toggle }
          result := .frame s.tx.id
            ([s.tx.crc.extractLsb 7 0, s.tx.crc.extractLsb 15 8] ++ body.take 5 ++ [0x80]) })

/-- 44_tx_encoder.md R245 (LAST), R246 (MIDDLE): the later frames of a transfer, and the registers they leave. The
identifier is `tx_id` (R247); nothing else changes. -/
def Obligations.TxNextLater : Prop :=
  ∀ (s : State) (body : Bytes), Loaded s.tx body → 0 < s.tx.offset.val → s.tx.offset.val < s.tx.len.val →
    (s.tx.len.val ≤ s.tx.offset.val + 7 →
      exec .txNext s =
        .next { s with
          tx := { s.tx with offset := s.tx.len, toggle := !s.tx.toggle }
          result := .frame s.tx.id (body.drop s.tx.offset ++ [if s.tx.toggle then 0x60 else 0x40]) }) ∧
    (s.tx.offset.val + 7 < s.tx.len.val → ∃ o : Fin 65, o.val = s.tx.offset.val + 7 ∧
      exec .txNext s =
        .next { s with
          tx := { s.tx with offset := o, toggle := !s.tx.toggle }
          result := .frame s.tx.id ((body.drop s.tx.offset).take 7 ++ [if s.tx.toggle then 0x20 else 0x00]) })

/-- 44_tx_encoder.md R249: the class of size 0 is loaded, and nothing is ever emitted for it. -/
def Obligations.TxZeroLengthBody : Prop :=
  ∀ (nt : BitVec 6) (ni : BitVec 12) (s : State), ∃ t,
    exec (.txLoad 8 [] nt ni) s = .next t ∧ t.tx.len.val = 0 ∧
    exec .txHasNext t = .next { t with result := .hasNext false } ∧ exec .txNext t = .refused .nothingToSend

namespace Sys2Proof.Claims

/-- A frame on the bus: identifier and data bytes (30_encoding.md R83). -/
structure Frame where
  id : BitVec 29
  data : Bytes
deriving DecidableEq, Repr

/-- `TX_NEXT` while `TX_HAS_NEXT` returns true (30_encoding.md R101, `TX_SEND`), with a bound on the number of frames: the
frames, and the state after them. -/
def send : Nat → State → List Frame × State
  | 0, s => ([], s)
  | n + 1, s =>
    match exec .txHasNext s with
    | .next u =>
      if u.result = .hasNext true then
        match exec .txNext u with
        | .next t =>
          match t.result with
          | .frame id d => (⟨id, d⟩ :: (send n t).1, (send n t).2)
          | _ => ([], t)
        | _ => ([], u)
      else ([], u)
    | _ => ([], s)

/-- `F(L)`, the number of frames of a body of `L` bytes (30_encoding.md R90): `ceil(x / 7)` is `(x + 6) / 7`. -/
def frameCount (L : Nat) : Nat := if L = 0 then 0 else if L ≤ 7 then 1 else 1 + (L - 5 + 6) / 7

/-- The tail of frame `j` of a body of `L` bytes (44_tx_encoder.md R248). -/
def tailOf (L j : Nat) : Byte :=
  if L ≤ 7 then 0xC0
  else (if j = 0 then 0x80 else if j % 2 = 1 then 0x20 else 0x00) ||| (if j + 1 = frameCount L then 0x40 else 0)

/-- The body bytes of frame `j` of a body of `L` bytes: all data bytes but the tail, and but the two CRC bytes of a FIRST
frame (44_tx_encoder.md R248). -/
def payloadOf (L j : Nat) (f : Frame) : Bytes :=
  if 8 ≤ L ∧ j = 0 then f.data.dropLast.drop 2 else f.data.dropLast

end Sys2Proof.Claims

/-- 44_tx_encoder.md R248 with 30_encoding.md R90 (the spec derives them from R242 to R246): a loaded transfer is emitted in
exactly `F(L)` frames of one identifier, with these tails, whose body bytes concatenate to the body; the CRC prefix of a
multi-frame transfer is `tx_crc`, low byte first. -/
def Obligations.TxSequence : Prop :=
  ∀ (s : State) (body : Bytes), Loaded s.tx body → s.tx.offset.val = 0 → s.tx.toggle = false →
    let L := body.length
    let frames := (send 65 s).1
    frames.length = frameCount L ∧
    (∀ f ∈ frames, f.id = s.tx.id ∧ 1 ≤ f.data.length ∧ f.data.length ≤ 8) ∧
    (∀ j < frameCount L, (frames.map (fun f => f.data.getLast?))[j]? = some (some (tailOf L j))) ∧
    ((List.range (frameCount L)).zipWith (fun j f => payloadOf L j f) frames).flatten = body ∧
    (8 ≤ L → (frames.map (fun f => f.data.take 2))[0]? = some [s.tx.crc.extractLsb 7 0, s.tx.crc.extractLsb 15 8]) ∧
    exec .txHasNext (send 65 s).2 = .next { (send 65 s).2 with result := .hasNext false }

/-! ## The RX unit -/

namespace Sys2Proof.Claims

/-- `message_type` of an identifier: `(id >> 18) & 0xFF` (30_encoding.md R81). -/
def mtOf (id : BitVec 29) : BitVec 8 := id.extractLsb 25 18

/-- The operation of the opcode table for a frame with these flags in its tail byte (30_encoding.md R89). -/
def frameRow (sot eot tog : Bool) : BitVec 5 → BitVec 32 → Bytes → BitVec 64 → Instr :=
  match sot, eot, tog with
  | true, true, false => .frameSingle
  | true, true, true => .frameSingleBadtog
  | true, false, false => .frameFirst
  | true, false, true => .frameFirstBadtog
  | false, false, tog => .frameMiddle tog
  | false, true, tog => .frameLast tog

/-- `RX_FRAME` of a frame with the data bytes `body` and that tail byte takes the state from `s` to `t` (45_rx_decoder.md
R261). -/
def Receives (s : State) (idIn : BitVec 32) (body : Bytes) (sot eot tog : Bool) (r : BitVec 5) (ts : BitVec 64)
    (t : State) : Prop :=
  exec (.rxFrame idIn (body ++ [tail sot eot tog r]) ts) s = .next t

/-- Slot `k` holds a transfer of identifier `id`. -/
def Owns (s : State) (k : Fin 8) (id : BitVec 29) : Prop :=
  (slotAt s.rx k).occ = true ∧ (slotAt s.rx k).id = id

/-- Nothing but slot `k` and the result differs. -/
def OnlySlot (s t : State) (k : Fin 8) : Prop :=
  t.tx = s.tx ∧ t.params = s.params ∧ t.requests = s.requests ∧ ∀ j, j ≠ k → slotAt t.rx j = slotAt s.rx j

/-- Slot `k` has been opened by a frame `[c0, c1] ++ rest ++ [tail]`, and no message is delivered (45_rx_decoder.md R269). The
last clause, that the bytes of `buf` at `len` and above are as before, is the model's choice (log 8): 10_state.md R25 and
93_implementation_defined.md U15, U16 leave them unspecified. -/
def Opened (s t : State) (k : Fin 8) (id : BitVec 29) (ts : BitVec 64) (c0 c1 : Byte) (rest : Bytes) : Prop :=
  t.result = .received none ∧ OnlySlot s t k ∧ Owns t k id ∧ (slotAt t.rx k).ts = ts ∧
  (slotAt t.rx k).crc.toNat = c0.toNat + 256 * c1.toNat ∧ (slotAt t.rx k).len.val = rest.length ∧
  (∀ x < rest.length, Memory.read (slotAt t.rx k).buf x = at' rest x) ∧
  ∀ x, rest.length ≤ x → Memory.read (slotAt t.rx k).buf x = Memory.read (slotAt s.rx k).buf x

/-- `EXPECTED_TOGGLE` (45_rx_decoder.md R271). -/
def expected (p : Config.Params) (len : Nat) : Bool :=
  if 5 ≤ len then decide ((len - 5) / 7 % 2 = 0) else p.shortOpenExpectedToggle

end Sys2Proof.Claims

/-- 30_encoding.md R84, R89, R99 with 45_rx_decoder.md R261: the six tail rows of the opcode table (`frameSingle`,
`frameSingleBadtog`, `frameFirst`, `frameFirstBadtog`, `frameMiddle`, `frameLast`) are the arrival of a frame with that tail,
bits 4..0 whatever they are. That a row stands for the arrival of a frame is the model's choice (log 4). -/
def Obligations.FrameRowsAreRxFrames : Prop :=
  ∀ (sot eot tog : Bool) (r : BitVec 5) (idIn : BitVec 32) (body : Bytes) (ts : BitVec 64),
    (∀ sel d, Selects 0x29 sel (.rxFrame idIn d ts)) ∧
    decode ⟨.tail (tail sot eot tog r), ⟨body, [idIn.toNat, ts.toNat]⟩⟩ = .ok (frameRow sot eot tog r idIn body ts) ∧
    ∀ s : State, exec (frameRow sot eot tog r idIn body ts) s = exec (.rxFrame idIn (body ++ [tail sot eot tog r]) ts) s

/-- 30_encoding.md R89, the last column of its table, row by row of the opcode table: in every state that keeps the invariant, a
frame of up to 8 data bytes completes, and SINGLE decodes at once and touches no slot; SINGLE_BADTOG is rejected and touches
none; FIRST opens a slot if its identifier has none and `n >= 4`, and is dropped if it has one; FIRST_BADTOG never opens a
slot; MIDDLE continues a transfer, LAST ends it. That a row stands for the arrival of a frame is the model's choice (log 4), and
so are the bytes of an opened slot's buffer at its length and above (log 8). -/
def Obligations.FrameRowsComplete : Prop :=
  ∀ (r : BitVec 5) (idIn : BitVec 32) (body : Bytes) (ts : BitVec 64) (s : State),
    State.Inv s → body.length ≤ 7 → mtOf (idIn.setWidth 29) ≠ 255 →
    let id : BitVec 29 := idIn.setWidth 29
    (∃ m c, exec (.decode (mtOf id) body) s = .next { s with result := .decoded m } ∧
      exec (.crc16 body) s = .next { s with result := .u16 c } ∧
      exec (.frameSingle r idIn body ts) s = .next { s with result := .received (m.map fun x => ⟨id, c, x⟩) }) ∧
    exec (.frameSingleBadtog r idIn body ts) s = .next { s with result := .received none } ∧
    (∃ t, exec (.frameFirst r idIn body ts) s = .next t ∧ t.result = .received none ∧
      ((∃ k, Owns s k id) → t.rx = s.rx) ∧
      ((∀ k, ¬ Owns s k id) → 4 ≤ body.length + 1 →
        ∃ k c0 c1 rest, body = [c0, c1] ++ rest ∧ Opened s t k id ts c0 c1 rest)) ∧
    (∃ t, exec (.frameFirstBadtog r idIn body ts) s = .next t ∧ t.result = .received none ∧
      ∀ k : Fin 8, (slotAt t.rx k).occ = true → slotAt t.rx k = slotAt s.rx k) ∧
    (∀ tog, ∃ t, exec (.frameMiddle tog r idIn body ts) s = .next t ∧ t.result = .received none ∧
      ∀ k, Owns s k id → tog = expected s.params (slotAt s.rx k).len → (slotAt s.rx k).len.val + body.length ≤ 256 →
        OnlySlot s t k ∧ Owns t k id ∧ (slotAt t.rx k).len.val = (slotAt s.rx k).len.val + body.length) ∧
    (∀ tog, ∃ t m, exec (.frameLast tog r idIn body ts) s = .next t ∧ t.result = .received m ∧
      ((∀ k, ¬ Owns s k id) → m = none) ∧
      ∀ k, Owns s k id → tog = expected s.params (slotAt s.rx k).len →
        OnlySlot s t k ∧ (slotAt t.rx k).occ = false)

/-- 45_rx_decoder.md R260: `RX_RESET` clears every `occ` and nothing else. That a cleared slot keeps its other fields is the
model's choice (log 8): 10_state.md R37 leaves them unspecified after a clear. -/
def Obligations.RxReset : Prop :=
  (∀ sel, Selects 0x28 sel .rxReset) ∧
  ∀ s : State, ∃ rx, exec .rxReset s = .next { s with rx := rx, result := .nothing } ∧
    ∀ k : Fin 8, slotAt rx k = { slotAt s.rx k with occ := false }

/-- 45_rx_decoder.md R262, R265 and 30_encoding.md R96: bits 31..29 of the identifier and bits 4..0 of the tail byte make no
difference to `RX_FRAME`. -/
def Obligations.RxIgnoresReservedBits : Prop :=
  ∀ (a b : BitVec 32) (body : Bytes) (sot eot tog : Bool) (r r' : BitVec 5) (ts : BitVec 64) (s : State),
    a.extractLsb 28 0 = b.extractLsb 28 0 →
    exec (.rxFrame a (body ++ [tail sot eot tog r]) ts) s = exec (.rxFrame b (body ++ [tail sot eot tog r']) ts) s

/-- 45_rx_decoder.md R263 (log channel), R264 (empty frame), and the refusal of R261: a frame of message_type 255 or of no
data bytes gives none and changes nothing, a frame of more than 8 is refused. -/
def Obligations.RxFiltersAndLengths : Prop :=
  ∀ (idIn : BitVec 32) (d : Bytes) (ts : BitVec 64) (s : State),
    (8 < d.length → exec (.rxFrame idIn d ts) s = .refused .frameTooLong) ∧
    (d.length ≤ 8 → mtOf (idIn.setWidth 29) = 255 →
      exec (.rxFrame idIn d ts) s = .next { s with result := .received none }) ∧
    exec (.rxFrame idIn [] ts) s = .next { s with result := .received none }

/-- 45_rx_decoder.md R266: a single frame is decoded at once and touches no slot; with its toggle set it is rejected. The
CRC is reported, not compared. -/
def Obligations.RxSingleFrame : Prop :=
  ∀ (idIn : BitVec 32) (body : Bytes) (r : BitVec 5) (ts : BitVec 64) (s : State),
    body.length ≤ 7 → mtOf (idIn.setWidth 29) ≠ 255 →
    (∃ m c,
      exec (.decode (mtOf (idIn.setWidth 29)) body) s = .next { s with result := .decoded m } ∧
      exec (.crc16 body) s = .next { s with result := .u16 c } ∧
      Receives s idIn body true true false r ts
        { s with result := .received (m.map fun x => ⟨idIn.setWidth 29, c, x⟩) }) ∧
    Receives s idIn body true true true r ts { s with result := .received none }

/-- 45_rx_decoder.md R269 with step 2 of R267: an opening frame of 4 to 8 data bytes, of an identifier with no slot,
occupies the first empty slot, the one of lowest index (decision D7). That the bytes of its buffer at its length and above
are as before is the model's choice (log 8). -/
def Obligations.RxOpens : Prop :=
  ∀ (idIn : BitVec 32) (c0 c1 : Byte) (rest : Bytes) (r : BitVec 5) (ts : BitVec 64) (s : State) (k : Fin 8),
    1 ≤ rest.length → rest.length ≤ 5 → mtOf (idIn.setWidth 29) ≠ 255 → (∀ j, ¬ Owns s j (idIn.setWidth 29)) →
    (slotAt s.rx k).occ = false → (∀ j < k, (slotAt s.rx j).occ = true) →
    ∃ t, Receives s idIn ([c0, c1] ++ rest) true false false r ts t ∧
      Opened s t k (idIn.setWidth 29) ts c0 c1 rest

/-- 45_rx_decoder.md R270: any other frame that is not single, of an identifier with no slot while a slot is empty, is dropped
and changes nothing. -/
def Obligations.RxDropsStrays : Prop :=
  ∀ (idIn : BitVec 32) (body : Bytes) (sot eot tog : Bool) (r : BitVec 5) (ts : BitVec 64) (s : State) (k : Fin 8),
    body.length ≤ 7 → mtOf (idIn.setWidth 29) ≠ 255 → (∀ j, ¬ Owns s j (idIn.setWidth 29)) →
    (slotAt s.rx k).occ = false → ¬ (sot = true ∧ eot = true) →
    ¬ (sot = true ∧ eot = false ∧ tog = false ∧ 4 ≤ body.length + 1) →
    Receives s idIn body sot eot tog r ts { s with result := .received none }

/-- 45_rx_decoder.md R271, R272: a frame of the wrong toggle, or with SOT, for the slot of its own identifier, is dropped
and the slot is as before. -/
def Obligations.RxPolices : Prop :=
  ∀ (idIn : BitVec 32) (body : Bytes) (sot eot tog : Bool) (r : BitVec 5) (ts : BitVec 64) (s : State) (k : Fin 8),
    body.length ≤ 7 → mtOf (idIn.setWidth 29) ≠ 255 → Owns s k (idIn.setWidth 29) →
    (∀ j, Owns s j (idIn.setWidth 29) → j = k) → ¬ (sot = true ∧ eot = true) →
    tog ≠ expected s.params (slotAt s.rx k).len ∨ sot = true →
    Receives s idIn body sot eot tog r ts { s with result := .received none }

/-- 45_rx_decoder.md R273: a continuation that would take the body past 256 bytes clears the slot and delivers nothing. -/
def Obligations.RxOverflows : Prop :=
  ∀ (idIn : BitVec 32) (body : Bytes) (eot tog : Bool) (r : BitVec 5) (ts : BitVec 64) (s : State) (k : Fin 8),
    body.length ≤ 7 → mtOf (idIn.setWidth 29) ≠ 255 → Owns s k (idIn.setWidth 29) →
    (∀ j, Owns s j (idIn.setWidth 29) → j = k) → tog = expected s.params (slotAt s.rx k).len →
    256 < (slotAt s.rx k).len.val + body.length →
    ∃ t, Receives s idIn body false eot tog r ts t ∧ t.result = .received none ∧ OnlySlot s t k ∧
      (slotAt t.rx k).occ = false

/-- 45_rx_decoder.md R274: an accepted continuation appends its bytes and changes nothing else of its slot. That the bytes of
the buffer at the new length and above are as before is the model's choice (log 8). -/
def Obligations.RxAppends : Prop :=
  ∀ (idIn : BitVec 32) (body : Bytes) (tog : Bool) (r : BitVec 5) (ts : BitVec 64) (s : State) (k : Fin 8),
    body.length ≤ 7 → mtOf (idIn.setWidth 29) ≠ 255 → Owns s k (idIn.setWidth 29) →
    (∀ j, Owns s j (idIn.setWidth 29) → j = k) → tog = expected s.params (slotAt s.rx k).len →
    (slotAt s.rx k).len.val + body.length ≤ 256 →
    ∃ t, Receives s idIn body false false tog r ts t ∧ t.result = .received none ∧ OnlySlot s t k ∧
      Owns t k (idIn.setWidth 29) ∧ (slotAt t.rx k).ts = (slotAt s.rx k).ts ∧
      (slotAt t.rx k).crc = (slotAt s.rx k).crc ∧
      (slotAt t.rx k).len.val = (slotAt s.rx k).len.val + body.length ∧
      ∀ x, Memory.read (slotAt t.rx k).buf x =
        if (slotAt s.rx k).len.val ≤ x ∧ x < (slotAt s.rx k).len.val + body.length
        then at' body (x - (slotAt s.rx k).len.val) else Memory.read (slotAt s.rx k).buf x

/-- 45_rx_decoder.md R275: the frame that ends a transfer clears the slot on every path, and delivers the message if the
CRC of the whole body is the stored one and `DECODE` accepts the body. -/
def Obligations.RxCompletes : Prop :=
  ∀ (idIn : BitVec 32) (old body : Bytes) (tog : Bool) (r : BitVec 5) (ts : BitVec 64) (s : State) (k : Fin 8),
    body.length ≤ 7 → mtOf (idIn.setWidth 29) ≠ 255 → Owns s k (idIn.setWidth 29) →
    (∀ j, Owns s j (idIn.setWidth 29) → j = k) → tog = expected s.params (slotAt s.rx k).len →
    old.length = (slotAt s.rx k).len.val → (∀ x < old.length, Memory.read (slotAt s.rx k).buf x = at' old x) →
    old.length + body.length ≤ 256 →
    ∃ t m c, Receives s idIn body false true tog r ts t ∧ OnlySlot s t k ∧ (slotAt t.rx k).occ = false ∧
      exec (.decode (mtOf (idIn.setWidth 29)) (old ++ body)) s = .next { s with result := .decoded m } ∧
      exec (.crc16 (old ++ body)) s = .next { s with result := .u16 c } ∧
      t.result = .received
        (if c = (slotAt s.rx k).crc then m.map fun x => ⟨idIn.setWidth 29, c, x⟩ else none)

/-- 45_rx_decoder.md R276 with step 3 of R267 and R268: with all slots occupied by others, a frame that is not single
clears the oldest (smallest `ts`, then least index) and is handled against the empty slot. That bytes of the evicted transfer
stay in the buffer at the new length and above is the model's choice (log 8). -/
def Obligations.RxEvicts : Prop :=
  ∀ (idIn : BitVec 32) (r : BitVec 5) (ts : BitVec 64) (s : State) (k : Fin 8),
    mtOf (idIn.setWidth 29) ≠ 255 → (∀ j, ¬ Owns s j (idIn.setWidth 29)) →
    (∀ j : Fin 8, (slotAt s.rx j).occ = true) →
    (∀ j : Fin 8, (slotAt s.rx k).ts.toNat ≤ (slotAt s.rx j).ts.toNat) →
    (∀ j < k, (slotAt s.rx j).ts ≠ (slotAt s.rx k).ts) →
    (∀ (c0 c1 : Byte) (rest : Bytes), 1 ≤ rest.length → rest.length ≤ 5 →
      ∃ t, Receives s idIn ([c0, c1] ++ rest) true false false r ts t ∧
        Opened s t k (idIn.setWidth 29) ts c0 c1 rest) ∧
    ∀ (body : Bytes) (sot eot tog : Bool), body.length ≤ 7 → ¬ (sot = true ∧ eot = true) →
      ¬ (sot = true ∧ eot = false ∧ tog = false ∧ 4 ≤ body.length + 1) →
      ∃ t, Receives s idIn body sot eot tog r ts t ∧ t.result = .received none ∧ OnlySlot s t k ∧
        (slotAt t.rx k).occ = false

namespace Sys2Proof.Claims

/-- Frames given to `RX_FRAME` in order (30_encoding.md R101, `RX_FEED`): the answers, and the state after them. -/
def feed : List (BitVec 32 × Bytes × BitVec 64) → State → List (Option ReceivedMessage) × State
  | [], s => ([], s)
  | (id, d, ts) :: rest, s =>
    match exec (.rxFrame id d ts) s with
    | .next t =>
      match t.result with
      | .received m => (m :: (feed rest t).1, (feed rest t).2)
      | _ => ([], t)
    | _ => ([], s)

/-- Emitted frames as they are presented to a receiver, frame `j` at time `ts j`. -/
def onBus (ts : Nat → BitVec 64) (frames : List Frame) : List (BitVec 32 × Bytes × BitVec 64) :=
  frames.zipIdx.map fun x => (x.1.id.setWidth 32, x.1.data, ts x.2)

end Sys2Proof.Claims

/-- 45_rx_decoder.md R278: the frames of a sent message, fed to a decoder in which its identifier has no slot (a fresh one
among them), give none for every frame but the last and the message for the last; every slot but at most one is as before,
and that one, used by a transfer of more than one frame, is empty. The second half of R278 is the spec's inference. -/
def Obligations.EndToEnd : Prop :=
  ∀ (row : CatalogueRow) (sel : BitVec 8) (body : Bytes) (nt : BitVec 6) (ni : BitVec 12) (ts : Nat → BitVec 64)
    (s : State), row ∈ catalogue → row.mt = sel.toNat → 1 ≤ row.size → body.length = row.size →
    ∃ loaded id c,
      exec (.txLoad sel body nt ni) s = .next loaded ∧
      exec (.wireId sel (nt.setWidth 32) (ni.setWidth 32)) s = .next { s with result := .u32 id } ∧
      exec (.crc16 body) s = .next { s with result := .u16 c } ∧
      ∀ u : State, (∀ k, ¬ Owns u k (id.setWidth 29)) →
        let out := feed (onBus ts (send 65 loaded).1) u
        out.1 = List.replicate (frameCount row.size - 1) none ++ [some ⟨id.setWidth 29, c, ⟨sel, body⟩⟩] ∧
        (row.size ≤ 7 → out.2.rx = u.rx) ∧
        ∃ k, OnlySlot u out.2 k ∧ (8 ≤ row.size → (slotAt out.2.rx k).occ = false)

/-- 43_crc16.md R235: any single bit flipped in the bytes of a multi-frame transfer other than the tail bytes, and the
decoder returns none for every frame of it. Rests on the CRC algorithm, which the spec takes from general knowledge
(log 10). -/
def Obligations.FlippedBitLosesTransfer : Prop :=
  ∀ (row : CatalogueRow) (sel : BitVec 8) (body : Bytes) (nt : BitVec 6) (ni : BitVec 12) (ts : Nat → BitVec 64)
    (s loaded : State) (j x y : Nat) (f : Frame),
    row ∈ catalogue → row.mt = sel.toNat → 8 ≤ row.size → body.length = row.size →
    exec (.txLoad sel body nt ni) s = .next loaded →
    (send 65 loaded).1[j]? = some f → x + 1 < f.data.length → y < 8 →
    ∀ u : State, (∀ k, ¬ Owns u k f.id) →
      let flipped : Frame := ⟨f.id, f.data.set x (at' f.data x ^^^ (1#8 <<< y))⟩
      let out := feed (onBus ts ((send 65 loaded).1.set j flipped)) u
      out.1 = List.replicate (frameCount row.size) none ∧ ∀ k, ¬ Owns out.2 k f.id

/-- 45_rx_decoder.md R279: after nine openings with strictly increasing timestamps on a fresh decoder the slots hold
identifiers 2 to 9, and a continuation of identifier 1 gives none and evicts identifier 2. The last is corner case (2) of R276,
which the spec infers from R267 and R268; the indices of the slots are those of R267 (decision D7). -/
def Obligations.LruLaw : Prop :=
  ∀ (ids : Fin 9 → BitVec 32) (ts : Fin 9 → BitVec 64) (d : Fin 9 → Bytes) (s fresh : State),
    (∀ j, mtOf ((ids j).setWidth 29) ≠ 255) → (∀ i j, (ids i).setWidth 29 = (ids j).setWidth 29 → i = j) →
    (∀ i j, i < j → (ts i).toNat < (ts j).toNat) →
    (∀ j, ∃ c0 c1 rest r, d j = [c0, c1] ++ rest ++ [tail true false false r] ∧ 1 ≤ rest.length ∧ rest.length ≤ 5) →
    exec .rxReset s = .next fresh →
    let out := feed ((List.finRange 9).map fun j => (ids j, d j, ts j)) fresh
    out.1 = List.replicate 9 none ∧ Owns out.2 0 ((ids 8).setWidth 29) ∧
    (∀ (k : Fin 8) (j : Fin 9), 1 ≤ k.val → j.val = k.val → Owns out.2 k ((ids j).setWidth 29)) ∧
    ∀ (body : Bytes) (eot tog : Bool) (r : BitVec 5) (ts' : BitVec 64), body.length ≤ 7 →
      ∃ t, Receives out.2 (ids 0) body false eot tog r ts' t ∧ t.result = .received none ∧ OnlySlot out.2 t 1 ∧
        (slotAt t.rx 1).occ = false

namespace Sys2Proof.Claims

/-- The identifier word of a message_type with the other fields (30_encoding.md R80). -/
def identifier (x : IdentFields) (mt : BitVec 8) : BitVec 32 := x.reserved ++ x.priority ++ mt ++ x.nodeType ++ x.nodeId

/-- The identifier rows of the opcode table (30_encoding.md R91, R92). -/
def identRows : List ((IdentFields → Bytes → BitVec 64 → Instr) × BitVec 8) :=
  [(.idReset, 0), (.idUnixTime, 7), (.idPreUnixTime, 8), (.idDataTransfer, 16), (.idNodeStatus, 32), (.idAmpStatus, 33),
   (.idPayloadEpsStatus, 34), (.idVlStatus, 36), (.idAmpControl, 64), (.idPayloadEpsOutputOverwrite, 65), (.idAck, 66),
   (.idAmpOverwrite, 67), (.idAmpResetOutput, 68), (.idAirBrakesControl, 69), (.idBaroMeasurement, 128),
   (.idImuMeasurement, 129), (.idBrightnessMeasurement, 130), (.idRocketState, 131), (.idMagMeasurement, 132),
   (.idOzysMeasurement, 133), (.idIcarusStatus, 160), (.idLogChannel, 255)]

end Sys2Proof.Claims

/-- 30_encoding.md R80, R81, R91, R92 with 45_rx_decoder.md R261: the 22 identifier rows of the opcode table are the arrival of
a frame with that identifier. In every state that keeps the invariant, and for 0 to 8 data bytes, the operation completes; a
message it delivers is of that class and carries the identifier; of the log channel nothing happens (R92). That a row
stands for the arrival of a frame is the model's choice (log 4). -/
def Obligations.IdentRowsAreRxFrames : Prop :=
  ∀ row ∈ identRows, ∀ (x : IdentFields) (d : Bytes) (ts : BitVec 64),
    decode ⟨.ident (identifier x row.2), ⟨d, [ts.toNat]⟩⟩ = .ok (row.1 x d ts) ∧
    ∀ s : State,
      exec (row.1 x d ts) s = exec (.rxFrame (identifier x row.2) d ts) s ∧
      (State.Inv s → d.length ≤ 8 →
        ∃ t, exec (row.1 x d ts) s = .next t ∧ t.tx = s.tx ∧
          ∃ m, t.result = .received m ∧
            ∀ y, m = some y → y.msg.mt = row.2 ∧ y.id = (identifier x row.2).setWidth 29) ∧
      (row.2 = 255 → d.length ≤ 8 → exec (row.1 x d ts) s = .next { s with result := .received none })

/-! ## The whole machine -/

/-- 10_state.md R36 after reset. -/
def Obligations.InvariantAtReset : Prop := State.Inv State.reset

/-- 10_state.md R36, 45_rx_decoder.md R280: every step keeps the invariant, from every state that has it. Two clauses of the
model's invariant are its own inference from R240 and R243 (`TxUnit.Inv`). -/
def Obligations.InvariantKept : Prop :=
  ∀ s t : State, State.Inv s → step s = .next t → State.Inv t

namespace Sys2Proof.Claims

/-- The message_types of the ten classes whose body is opaque bytes (42_message_codecs.md R150). -/
def opaqueTypes : List (BitVec 8) := [7, 33, 34, 68, 128, 129, 130, 132, 133, 160]

/-- What an operation can be refused for, by its word (60_exceptions.md R309, 93_implementation_defined.md U10 to U13, and
the line `Refusals` of each rule): of the `PACK`s those of the opaque classes alone (42_message_codecs.md R151), of the
`UNPACK`s all but that of the class of size 0 (R165), and of `WIRE_ID` and `TX_LOAD` what their class leaves possible. -/
def refusals (i : Instr) : List Refusal :=
  match (encode i).word with
  | .cmd w =>
    let cmd := w.extractLsb' 8 6
    let sel := w.extractLsb' 0 8
    let known := catalogue.any fun r => r.mt == sel.toNat
    if cmd ∈ [0x01#6, 0x02, 0x03, 0x04, 0x05, 0x06, 0x07, 0x08, 0x09, 0x0A] then [.outsideBuffer]
    else if cmd ∈ [0x0B#6, 0x0C] then [.badWidth, .outsideBuffer]
    else if cmd = 0x12 then if known then [] else [.unknownClass]
    else if cmd = 0x20 then if known then [.badBodyLength] else [.unknownClass]
    else if cmd = 0x22 then [.nothingToSend]
    else if cmd = 0x29 then [.frameTooLong]
    else if cmd = 0x30 then if sel ∈ opaqueTypes then [.badBodyLength] else []
    else if cmd = 0x31 then if sel = 8 then [] else [.bodyTooShort]
    else if cmd = 0x33 then [.bodyTooShort]
    else []
  | .tail _ => [.frameTooLong]
  | .ident _ => [.frameTooLong]

end Sys2Proof.Claims

/-- 93_implementation_defined.md ("Nothing in the block is `stuck` or `fault`: every accepted request completes"), 60_exceptions.md
R309: from every state, one that no run reaches among them, no step faults, and an operation completes or is refused for a
reason that the spec gives for it. -/
def Obligations.NoStepFaults : Prop :=
  (∀ s : State, safeStep s ∧
    ((∃ t, step s = .next t) ∨ (∃ e, step s = .refused e ∧ ∀ m, e ≠ .notModelled m))) ∧
  ∀ (i : Instr) (s : State), (∃ t, exec i s = .next t) ∨ ∃ e ∈ refusals i, exec i s = .refused e

namespace Sys2Proof.Claims

/-- The operations of the TX unit (00_scope.md R15). -/
def isTx : Instr → Bool
  | .txLoad _ _ _ _ | .txHasNext | .txNext => true
  | _ => false

/-- The operations of the RX unit: `RX_RESET`, `RX_FRAME`, and the arrivals of the tail and identifier rows. -/
def isRx (i : Instr) : Bool :=
  match (encode i).word with
  | .cmd w => w.extractLsb' 8 6 == 0x28#6 || w.extractLsb' 8 6 == 0x29#6
  | .tail _ => true
  | .ident _ => true

end Sys2Proof.Claims

/-- 10_state.md R20, 20_memory.md R64: every operation that belongs to neither unit is a pure function: it changes nothing but
the result, and its result depends on its operands and the parameters alone. -/
def Obligations.PureOperations : Prop :=
  ∀ (i : Instr) (s t : State), isTx i = false → isRx i = false → exec i s = .next t →
    t = { s with result := t.result } ∧
    ∀ s' : State, s'.params = s.params → exec i s' = .next { s' with result := t.result }

/-- 20_memory.md R72, 10_state.md R20: no operation of one unit reads or writes the other; and no operation writes the
parameters (00_scope.md R6, R7) or the requests still waiting (20_memory.md R66, log 1). -/
def Obligations.UnitsIndependent : Prop :=
  ∀ (i : Instr) (s t : State), exec i s = .next t →
    t.params = s.params ∧ t.requests = s.requests ∧
    (isRx i = false → t.rx = s.rx ∧ ∀ rx, exec i { s with rx := rx } = .next { t with rx := rx }) ∧
    (isTx i = false → t.tx = s.tx ∧ ∀ tx, exec i { s with tx := tx } = .next { t with tx := tx })

/-- 20_memory.md R68, 60_exceptions.md R313, R314: a frame changes no slot of another identifier, except by evicting the
oldest transfer when all slots are occupied and none is its own; and no slot ever holds the log channel (30_encoding.md
R92). -/
def Obligations.SlotIsolation : Prop :=
  ∀ (idIn : BitVec 32) (d : Bytes) (ts : BitVec 64) (s t : State), exec (.rxFrame idIn d ts) s = .next t →
    (∀ k : Fin 8, (slotAt s.rx k).occ = true → (slotAt s.rx k).id ≠ idIn.setWidth 29 →
      slotAt t.rx k = slotAt s.rx k ∨
      ((∀ j : Fin 8, (slotAt s.rx j).occ = true) ∧ (∀ j, ¬ Owns s j (idIn.setWidth 29)) ∧
        ∀ j : Fin 8, (slotAt s.rx k).ts.toNat ≤ (slotAt s.rx j).ts.toNat)) ∧
    ((∀ k : Fin 8, (slotAt s.rx k).occ = true → mtOf (slotAt s.rx k).id ≠ 255) →
      ∀ k : Fin 8, (slotAt t.rx k).occ = true → mtOf (slotAt t.rx k).id ≠ 255)

namespace Sys2Proof.Claims

/-- Two states that differ at most in what the spec leaves unspecified and unreadable: `tx_id`, `tx_crc` and `tx_buf` of a
transfer that is not in progress, `tx_buf` from `tx_len` on, the fields of empty slots, and slot buffers from `len` on
(10_state.md R22, R25, R37, R38). -/
def Agree (s t : State) : Prop :=
  s.params = t.params ∧ s.requests = t.requests ∧ s.result = t.result ∧
  s.tx.len = t.tx.len ∧ s.tx.offset = t.tx.offset ∧ s.tx.toggle = t.tx.toggle ∧
  (s.tx.offset.val < s.tx.len.val → s.tx.id = t.tx.id ∧ s.tx.crc = t.tx.crc ∧
    ∀ x < s.tx.len.val, Memory.read s.tx.buf x = Memory.read t.tx.buf x) ∧
  ∀ k : Fin 8, (slotAt s.rx k).occ = (slotAt t.rx k).occ ∧
    ((slotAt s.rx k).occ = true →
      (slotAt s.rx k).id = (slotAt t.rx k).id ∧ (slotAt s.rx k).ts = (slotAt t.rx k).ts ∧
      (slotAt s.rx k).crc = (slotAt t.rx k).crc ∧ (slotAt s.rx k).len = (slotAt t.rx k).len ∧
      ∀ x < (slotAt s.rx k).len.val, Memory.read (slotAt s.rx k).buf x = Memory.read (slotAt t.rx k).buf x)

end Sys2Proof.Claims

/-- 70_reset_and_hazards.md R331, 10_state.md R22, R25, R37: nothing the spec leaves unspecified can be seen. Two states
that differ only there step alike, to states that differ only there, with the same result; so no value the model chose there
(logs 6, 7, 8) shows. -/
def Obligations.UnspecifiedIsUnobservable : Prop :=
  ∀ s s' : State, Agree s s' →
    (∀ t, step s = .next t → ∃ t', step s' = .next t' ∧ Agree t t') ∧
    (∀ e, step s = .refused e → step s' = .refused e)
end

