-- ==== Sys2Proof/Laws/Bits.lean ====
section
/-! SUPPORT. The bits of operand buffers: what writing and reading a field sees (30_encoding.md R94), and buffers compared
bit by bit. -/

namespace Sys2Proof.Machine

/-! ### One bit -/

theorem getLsbD_byteWithBit (x : Byte) (k j : Nat) (b : Bool) (hk : k < 8) :
    (byteWithBit x k b).getLsbD j = if j = k then b else x.getLsbD j := by
  unfold byteWithBit
  by_cases hj : j < 8
  · split
    · rename_i hb; subst hb
      simp only [BitVec.getLsbD_or, BitVec.getLsbD_shiftLeft, BitVec.getLsbD_one]
      split <;> rename_i h
      · subst h; simp [hk]
      · have : ¬ (k ≤ j ∧ j - k = 0) := by omega
        by_cases h1 : j < k <;> simp [h1]
        intro _; omega
    · rename_i hb
      simp only [Bool.not_eq_true] at hb; subst hb
      simp only [BitVec.getLsbD_and, BitVec.getLsbD_not, BitVec.getLsbD_shiftLeft, BitVec.getLsbD_one]
      split <;> rename_i h
      · subst h; simp [hk]
      · by_cases h1 : j < k <;> simp [h1, hj]
        intro _; omega
  · have h1 : j ≠ k := by omega
    rw [if_neg h1, BitVec.getLsbD_of_ge _ _ (by omega), BitVec.getLsbD_of_ge _ _ (by omega)]

@[simp] theorem length_setBitAt (B : Bytes) (p : Nat) (b : Bool) : (setBitAt B p b).length = B.length := by
  simp [setBitAt]

theorem bitAt_setBitAt (B : Bytes) (p q : Nat) (b : Bool) (hp : p < 8 * B.length) :
    bitAt (setBitAt B p b) q = if q = p then b else bitAt B q := by
  have hp8 : p / 8 < B.length := by omega
  unfold bitAt setBitAt
  rw [List.getD_eq_getElem?_getD, List.getElem?_set]
  by_cases hd : p / 8 = q / 8
  · rw [if_pos hd, if_pos (by omega)]
    simp only [Option.getD_some]
    rw [getLsbD_byteWithBit _ _ _ _ (by omega), hd]
    by_cases h : q = p
    · rw [if_pos h, if_pos (by omega)]
    · rw [if_neg h, if_neg (by omega)]
  · rw [if_neg hd, if_neg (by rintro rfl; exact hd rfl), ← List.getD_eq_getElem?_getD]

/-! ### A field -/

@[simp] theorem length_putBitsLoop (B : Bytes) (o w v n : Nat) : (putBitsLoop B o w v n).length = B.length := by
  induction n with
  | zero => rfl
  | succ n ih => simp [putBitsLoop, ih]

theorem bitAt_putBitsLoop (B : Bytes) (o w v n q : Nat) (h : o + n ≤ 8 * B.length) :
    bitAt (putBitsLoop B o w v n) q = if o ≤ q ∧ q < o + n then v.testBit (w - 1 - (q - o)) else bitAt B q := by
  induction n with
  | zero => rw [if_neg (by omega)]; rfl
  | succ n ih =>
    rw [putBitsLoop, bitAt_setBitAt _ _ _ _ (by simp; omega), ih (by omega)]
    by_cases hq : q = o + n
    · rw [if_pos hq, if_pos (by omega)]; subst hq; congr; omega
    · rw [if_neg hq]
      by_cases h2 : o ≤ q ∧ q < o + n
      · rw [if_pos h2, if_pos (by omega)]
      · rw [if_neg h2, if_neg (by omega)]

@[simp] theorem length_putField (B : Bytes) (o w v : Nat) : (putField B o w v).length = B.length :=
  length_putBitsLoop ..

/-- What `PUT_BITS` writes (40_bit_io.md R131). -/
theorem bitAt_putField (B : Bytes) (o w v q : Nat) (h : o + w ≤ 8 * B.length) :
    bitAt (putField B o w v) q = if o ≤ q ∧ q < o + w then v.testBit (w - 1 - (q - o)) else bitAt B q :=
  bitAt_putBitsLoop B o w v w q h

/-- What `GET_BITS` reads (40_bit_io.md R132). -/
theorem testBit_getBitsLoop (B : Bytes) (o n j : Nat) :
    (getBitsLoop B o n).testBit j = (decide (j < n) && bitAt B (o + (n - 1 - j))) := by
  induction n generalizing j with
  | zero => simp [getBitsLoop]
  | succ n ih =>
    simp only [getBitsLoop, Nat.testBit_or, Nat.testBit_shiftLeft, ih]
    cases j with
    | zero =>
      clear ih
      generalize hb : bitAt B (o + n) = b
      cases b <;> simp [hb]
    | succ j =>
      have h1 : (bitAt B (o + n)).toNat.testBit (j + 1) = false := by
        cases bitAt B (o + n) <;> simp [Nat.testBit_succ]
      rw [h1]
      have h2 : n - 1 - j = n + 1 - 1 - (j + 1) := by omega
      simp [h2]

theorem getBitsLoop_lt (B : Bytes) (o n : Nat) : getBitsLoop B o n < 2 ^ n := by
  apply Nat.lt_pow_two_of_testBit
  intro j hj
  rw [testBit_getBitsLoop]; simp; omega

theorem getLsbD_getField (w : Nat) (B : Bytes) (o j : Nat) :
    (getField w B o).getLsbD j = (decide (j < w) && bitAt B (o + (w - 1 - j))) := by
  simp only [getField, BitVec.getLsbD_ofNat, testBit_getBitsLoop]
  by_cases h : j < w <;> simp [h]

theorem getLsbD_byte (B : Bytes) (i j : Nat) (hj : j < 8) : (B.getD i 0).getLsbD j = bitAt B (8 * i + (7 - j)) := by
  unfold bitAt
  congr 1
  · congr 1; omega
  · omega

/-! ### Whole buffers -/

/-- Two buffers of one length that hold the same bits are the same. -/
theorem bytes_ext {A B : Bytes} (hl : A.length = B.length) (h : ∀ p < 8 * A.length, bitAt A p = bitAt B p) :
    A = B := by
  apply List.ext_getElem hl
  intro i h1 h2
  apply BitVec.eq_of_getLsbD_eq
  intro j hj
  have h3 := h (8 * i + (7 - j)) (by omega)
  rw [← getLsbD_byte _ _ _ hj, ← getLsbD_byte _ _ _ hj] at h3
  simpa [List.getD_eq_getElem?_getD, h1, h2] using h3

theorem bitAt_append (A B : Bytes) (p : Nat) :
    bitAt (A ++ B) p = if p < 8 * A.length then bitAt A p else bitAt B (p - 8 * A.length) := by
  unfold bitAt
  split
  · rw [List.getD_append _ _ _ _ (by omega)]
  · rw [List.getD_append_right _ _ _ _ (by omega)]
    congr 1
    · congr 1; omega
    · omega

theorem bitAt_drop (B : Bytes) (n p : Nat) : bitAt (B.drop n) p = bitAt B (8 * n + p) := by
  unfold bitAt
  rw [List.getD_eq_getElem?_getD, List.getD_eq_getElem?_getD, List.getElem?_drop]
  congr 1
  · congr 2; omega
  · omega

theorem bitAt_take (B : Bytes) (n p : Nat) (h : p < 8 * n) : bitAt (B.take n) p = bitAt B p := by
  unfold bitAt
  rw [List.getD_eq_getElem?_getD, List.getD_eq_getElem?_getD, List.getElem?_take, if_pos (by omega)]

theorem bitAt_of_ge (B : Bytes) (p : Nat) (h : 8 * B.length ≤ p) : bitAt B p = false := by
  unfold bitAt
  rw [List.getD_eq_default _ _ (by omega)]; simp

theorem bitAt_replicate_zero (n p : Nat) : bitAt (List.replicate n 0) p = false := by
  unfold bitAt
  rw [List.getD_eq_getElem?_getD, List.getElem?_replicate]
  split <;> simp

/-! ### Big-endian values (40_bit_io.md R120, R129) -/

@[simp] theorem length_beBytes (n v : Nat) : (beBytes n v).length = n := by simp [beBytes]

theorem bitAt_beBytes (n v p : Nat) (h : p < 8 * n) : bitAt (beBytes n v) p = v.testBit (8 * n - 1 - p) := by
  unfold bitAt beBytes
  rw [List.getD_eq_getElem?_getD, List.getElem?_map, List.getElem?_range (by omega)]
  simp only [Option.map_some, Option.getD_some, BitVec.getLsbD_ofNat, Nat.testBit_shiftRight]
  rw [show 8 * (n - 1 - p / 8) + (7 - p % 8) = 8 * n - 1 - p by omega]
  simp; omega

theorem beValue_append (s : Bytes) (b : Byte) : beValue (s ++ [b]) = beValue s <<< 8 ||| b.toNat := by
  simp [beValue]

theorem testBit_beValue (s : Bytes) (j : Nat) :
    (beValue s).testBit j = (decide (j < 8 * s.length) && bitAt s (8 * s.length - 1 - j)) := by
  induction s using List.reverseRecOn generalizing j with
  | nil => simp [beValue]
  | append_singleton s b ih =>
    rw [beValue_append, Nat.testBit_or, Nat.testBit_shiftLeft, ih, List.length_append, List.length_singleton, bitAt_append]
    by_cases h8 : j < 8
    · have h1 : b.toNat.testBit j = bitAt [b] (7 - j) := by
        rw [BitVec.testBit_toNat]
        have := getLsbD_byte [b] 0 j h8
        simpa using this
      rw [if_neg (by omega), show 8 * (s.length + 1) - 1 - j - 8 * s.length = 7 - j by omega, h1]
      have h2 : ¬ 8 ≤ j := by omega
      have h3 : j < 8 * (s.length + 1) := by omega
      simp [h2, h3]
    · have h1 : b.toNat.testBit j = false := by
        rw [BitVec.testBit_toNat, BitVec.getLsbD_of_ge _ _ (by omega)]
      rw [h1, Bool.or_false]
      by_cases h2 : j < 8 * (s.length + 1)
      · rw [if_pos (by omega), show 8 * (s.length + 1) - 1 - j = 8 * s.length - 1 - (j - 8) by omega]
        have h3 : 8 ≤ j := by omega
        have h4 : j - 8 < 8 * s.length := by omega
        simp [h2, h3, h4]
      · have h4 : ¬ j - 8 < 8 * s.length := by omega
        simp [h2, h4]

theorem beValue_lt (s : Bytes) : beValue s < 2 ^ (8 * s.length) := by
  apply Nat.lt_pow_two_of_testBit
  intro j hj
  rw [testBit_beValue]; simp; omega

@[simp] theorem length_spliceBytes (B : Bytes) (i : Nat) (s : Bytes) (h : i + s.length ≤ B.length) :
    (spliceBytes B i s).length = B.length := by
  simp [spliceBytes]; omega

theorem getElem?_spliceBytes (B : Bytes) (i k : Nat) (s : Bytes) (h : i + s.length ≤ B.length) :
    (spliceBytes B i s)[k]? = if i ≤ k ∧ k < i + s.length then s[k - i]? else B[k]? := by
  unfold spliceBytes
  simp only [List.append_assoc]
  by_cases h1 : k < i
  · rw [List.getElem?_append_left (by simp; omega), List.getElem?_take, if_pos h1, if_neg (by omega)]
  · rw [List.getElem?_append_right (by simp; omega)]
    simp only [List.length_take, show min i B.length = i by omega]
    by_cases h2 : k < i + s.length
    · rw [List.getElem?_append_left (by omega), if_pos (by omega)]
    · rw [List.getElem?_append_right (by omega), List.getElem?_drop, if_neg (by omega)]
      congr 1; omega

/-- A fixed-width write is a field write (40_bit_io.md R134). -/
theorem spliceBytes_beBytes (B : Bytes) (i n v : Nat) (h : i + n ≤ B.length) :
    spliceBytes B i (beBytes n v) = putField B (8 * i) (8 * n) v := by
  apply bytes_ext
  · simp [h]
  · intro p hp
    rw [length_spliceBytes _ _ _ (by simpa using h)] at hp
    rw [bitAt_putField _ _ _ _ _ (by omega)]
    unfold spliceBytes
    rw [List.append_assoc, bitAt_append, bitAt_append]
    simp only [List.length_take, length_beBytes, show min i B.length = i by omega]
    by_cases h1 : p < 8 * i
    · rw [if_pos h1, if_neg (by omega), bitAt_take _ _ _ h1]
    · rw [if_neg h1]
      by_cases h2 : p < 8 * i + 8 * n
      · rw [if_pos (by omega), if_pos (by omega), bitAt_beBytes _ _ _ (by omega)]
      · rw [if_neg (by omega), if_neg (by omega), bitAt_drop]; congr 1; omega

/-- A fixed-width read is a field read (40_bit_io.md R134). -/
theorem beValue_sliceBytes (B : Bytes) (i n : Nat) (h : i + n ≤ B.length) :
    beValue (sliceBytes B i n) = getBitsLoop B (8 * i) (8 * n) := by
  apply Nat.eq_of_testBit_eq
  intro j
  have hl : (sliceBytes B i n).length = n := by simp [sliceBytes]; omega
  rw [testBit_beValue, testBit_getBitsLoop, hl]
  by_cases hj : j < 8 * n
  · simp only [hj, decide_true, Bool.true_and, sliceBytes]
    rw [bitAt_take _ _ _ (by omega), bitAt_drop]
  · simp [hj]

/-- What `GET_BITS` reads after `PUT_BITS` (40_bit_io.md R133). -/
theorem getBitsLoop_putField (B : Bytes) (o w v : Nat) (h : o + w ≤ 8 * B.length) (hv : v < 2 ^ w) :
    getBitsLoop (putField B o w v) o w = v := by
  apply Nat.eq_of_testBit_eq
  intro j
  rw [testBit_getBitsLoop]
  by_cases hj : j < w
  · rw [bitAt_putField _ _ _ _ _ h, if_pos (by omega)]
    simp only [hj, decide_true, Bool.true_and]
    congr 1; omega
  · have : v.testBit j = false :=
      Nat.testBit_lt_two_pow (Nat.lt_of_lt_of_le hv (Nat.pow_le_pow_right (by omega) (by omega)))
    simp [hj, this]

/-- What `GET_Un` reads after `PUT_Un` (40_bit_io.md R133). -/
theorem beValue_sliceBytes_spliceBytes (B : Bytes) (i n v : Nat) (h : i + n ≤ B.length) (hv : v < 2 ^ (8 * n)) :
    beValue (sliceBytes (spliceBytes B i (beBytes n v)) i n) = v := by
  have hl : (spliceBytes B i (beBytes n v)).length = B.length := length_spliceBytes _ _ _ (by simpa using h)
  rw [beValue_sliceBytes _ _ _ (by omega), spliceBytes_beBytes _ _ _ _ h, getBitsLoop_putField _ _ _ _ (by omega) hv]

/-! ### Bodies (42_message_codecs.md R151) -/

theorem length_foldl_putField (fs : List FieldValue) (B : Bytes) :
    (fs.foldl (fun B f => putField B f.offset f.width f.value) B).length = B.length := by
  induction fs generalizing B with
  | nil => rfl
  | cons f fs ih => simp [ih]

/-- `PACK` builds a body of its size (42_message_codecs.md R207). -/
@[simp] theorem length_packBody (size : Nat) (fs : List FieldValue) : (packBody size fs).length = size := by
  simp [packBody, length_foldl_putField]

/-- What `PACK` builds: at each bit, the last field that covers it, else zero (42_message_codecs.md R151). -/
theorem bitAt_foldl_putField (fs : List FieldValue) (B : Bytes) (p : Nat)
    (h : ∀ f ∈ fs, f.offset + f.width ≤ 8 * B.length) :
    bitAt (fs.foldl (fun B f => putField B f.offset f.width f.value) B) p =
      fs.foldl (fun b f => if f.offset ≤ p ∧ p < f.offset + f.width then f.value.testBit (f.width - 1 - (p - f.offset))
        else b) (bitAt B p) := by
  induction fs generalizing B with
  | nil => rfl
  | cons f fs ih =>
    simp only [List.foldl_cons]
    rw [ih _ (by intro g hg; simpa using h g (List.mem_cons_of_mem _ hg)),
      bitAt_putField _ _ _ _ _ (h f List.mem_cons_self)]

theorem bitAt_packBody (size : Nat) (fs : List FieldValue) (p : Nat)
    (h : ∀ f ∈ fs, f.offset + f.width ≤ 8 * size) :
    bitAt (packBody size fs) p =
      fs.foldl (fun b f => if f.offset ≤ p ∧ p < f.offset + f.width then f.value.testBit (f.width - 1 - (p - f.offset))
        else b) false := by
  unfold packBody
  rw [bitAt_foldl_putField _ _ _ (by simpa using h), bitAt_replicate_zero]

end Sys2Proof.Machine
end

