-- ==== Sys2Proof/Laws/Catalogue.lean ====
section
/-! SUPPORT. The message catalogue read in both directions (30_encoding.md R91), and what `DECODE` answers
(42_message_codecs.md R155, R156). -/

namespace Sys2Proof.Machine

@[simp] theorem classOf_messageTypeOf (c : MsgClass) : classOf (messageTypeOf c) = some c := by
  cases c <;> rfl

/-- A message_type selects at most the class that has it. -/
theorem messageTypeOf_of_classOf {mt : BitVec 8} {c : MsgClass} (h : classOf mt = some c) : messageTypeOf c = mt := by
  unfold classOf at h
  split at h <;>
    first
      | (rename_i hn
         injection h with h; subst h
         exact BitVec.eq_of_toNat_eq (by rw [hn]; rfl))
      | cases h

theorem sizeBytes_le (c : MsgClass) : sizeBytes c ≤ 36 := by cases c <;> decide

@[simp] theorem classOf_log : classOf Config.mtLog = none := rfl

theorem acceptLen_exact (p : Config.Params) (c : MsgClass) : acceptLen p (messageTypeOf c) (sizeBytes c) = true := by
  simp [acceptLen]

/-- A body of the exact length of its class is accepted, whatever the parameter (R156). -/
theorem decodeMessage_exact (p : Config.Params) {mt : BitVec 8} {c : MsgClass} {B : Bytes} (hc : classOf mt = some c)
    (hB : B.length = sizeBytes c) : decodeMessage p mt B = some { mt := mt, body := B } := by
  simp [decodeMessage, acceptLen, hc, hB]

/-- A message_type outside the catalogue gives none (R155). -/
theorem decodeMessage_unknown (p : Config.Params) {mt : BitVec 8} {B : Bytes} (hc : classOf mt = none) :
    decodeMessage p mt B = none := by simp [decodeMessage, hc]

/-- What `DECODE` answers, if anything: the pair it was given (R155, decision D10). -/
theorem decodeMessage_some {p : Config.Params} {mt : BitVec 8} {B : Bytes} {m : Message}
    (h : decodeMessage p mt B = some m) : m = { mt := mt, body := B } ∧ (classOf mt).isSome = true := by
  unfold decodeMessage at h
  split at h
  · cases h
  · rename_i hc
    split at h
    · exact ⟨by simpa using h.symm, by simp [hc]⟩
    · cases h

end Sys2Proof.Machine
end

