-- ==== Sys2Proof/Laws/Crc.lean ====
section
/-! SUPPORT. The CRC register bit by bit (43_crc16.md). -/

namespace Sys2Proof.Machine

/-- One bit of the byte in `x` and one shift of the register (43_crc16.md R231). -/
theorem crcShift_xor (c : BitVec 16) (x : Byte) :
    crcShift (c ^^^ (x.setWidth 16 <<< 8)) =
      (if c.getLsbD 15 != x.getLsbD 7 then (c <<< 1) ^^^ 0x1021#16 else c <<< 1) ^^^ ((x <<< 1).setWidth 16 <<< 8) := by
  unfold crcShift
  have h15 : (c ^^^ (x.setWidth 16 <<< 8)).getLsbD 15 = (c.getLsbD 15 != x.getLsbD 7) := by simp
  have hs : (c ^^^ (x.setWidth 16 <<< 8)) <<< 1 = (c <<< 1) ^^^ ((x <<< 1).setWidth 16 <<< 8) := by
    apply BitVec.eq_of_getLsbD_eq
    intro i hi
    interval_cases i <;> simp
  rw [h15, hs]
  split
  · rw [BitVec.xor_assoc, BitVec.xor_comm ((x <<< 1).setWidth 16 <<< 8), ← BitVec.xor_assoc]
  · rfl

/-- One byte is its eight bits, most significant first (43_crc16.md R231). -/
theorem crcByte_eq (c : BitVec 16) (x : Byte) :
    crcByte c x = (List.range 8).foldl
      (fun (c : BitVec 16) (j : Nat) => if c.getLsbD 15 != x.getLsbD (7 - j) then (c <<< 1) ^^^ 0x1021#16 else c <<< 1) c := by
  have h0 : ∀ j, j ≤ 7 → (x <<< j).getLsbD 7 = x.getLsbD (7 - j) := by
    intro j hj; rw [BitVec.getLsbD_shiftLeft]; simp; omega
  have hsh : ∀ j : Nat, ((x <<< j : BitVec 8) <<< 1 : BitVec 8) = x <<< (j + 1) := fun j => by rw [BitVec.shiftLeft_add]
  have step : ∀ (j : Nat) (c : BitVec 16), j ≤ 7 →
      crcShift (c ^^^ ((x <<< j).setWidth 16 <<< 8)) =
        (if c.getLsbD 15 != x.getLsbD (7 - j) then (c <<< 1) ^^^ 0x1021#16 else c <<< 1) ^^^
          ((x <<< (j + 1)).setWidth 16 <<< 8) := by
    intro j c hj; rw [crcShift_xor, h0 j hj, hsh]
  have hx : x <<< 0 = x := BitVec.shiftLeft_zero x
  unfold crcByte
  simp only [crcShifts]
  rw [← hx, step 0 _ (by omega), step 1 _ (by omega), step 2 _ (by omega), step 3 _ (by omega), step 4 _ (by omega),
    step 5 _ (by omega), step 6 _ (by omega), step 7 _ (by omega), hx]
  have h8 : x <<< (7 + 1) = 0#8 := BitVec.shiftLeft_eq_zero (by omega)
  have hz : (0#8).setWidth 16 <<< 8 = 0#16 := by decide
  rw [h8, hz, BitVec.xor_zero]
  rfl

end Sys2Proof.Machine
end

