-- ==== Sys2Proof/Laws/Decode.lean ====
section
/-! SUPPORT. The fields of a word that was put together from fields, the operands of a bundle that was written from operands,
and everything `accept` can answer. -/

namespace Sys2Proof

/-! ### Words -/

@[simp] theorem cmdOf_cmdWord (c : BitVec 6) (sel : BitVec 8) : cmdOf (cmdWord c sel) = c := by
  apply BitVec.eq_of_getLsbD_eq
  intro i hi
  simp only [cmdOf, cmdWord, BitVec.getLsbD_extractLsb', BitVec.getLsbD_append]
  simp [hi]

@[simp] theorem selOf_cmdWord (c : BitVec 6) (sel : BitVec 8) : selOf (cmdWord c sel) = sel := by
  apply BitVec.eq_of_getLsbD_eq
  intro i hi
  simp only [selOf, cmdWord, BitVec.getLsbD_extractLsb', BitVec.getLsbD_append]
  simp [hi]

/-- A command word is its `cmd` and its `sel`. -/
theorem cmdWord_fields (w : BitVec 14) : cmdWord (cmdOf w) (selOf w) = w := by
  apply BitVec.eq_of_getLsbD_eq
  intro i hi
  simp only [cmdOf, selOf, cmdWord, BitVec.getLsbD_extractLsb', BitVec.getLsbD_append]
  by_cases h : i < 8
  · simp [h]
  · simp [h, show i - 8 < 6 by omega, show 8 + (i - 8) = i by omega]

@[simp] theorem tailSot_tailByte (a b c : Bool) (r : BitVec 5) : Machine.tailSot (Machine.tailByte a b c r) = a := by
  revert a b c r; decide

@[simp] theorem tailEot_tailByte (a b c : Bool) (r : BitVec 5) : Machine.tailEot (Machine.tailByte a b c r) = b := by
  revert a b c r; decide

@[simp] theorem tailTog_tailByte (a b c : Bool) (r : BitVec 5) : Machine.tailTog (Machine.tailByte a b c r) = c := by
  revert a b c r; decide

@[simp] theorem reserved_tailByte (a b c : Bool) (r : BitVec 5) : (Machine.tailByte a b c r).extractLsb' 0 5 = r := by
  revert a b c r; decide

/-- A byte is the tail byte of its four fields. -/
theorem tailByte_fields (t : Byte) :
    Machine.tailByte (Machine.tailSot t) (Machine.tailEot t) (Machine.tailTog t) (t.extractLsb' 0 5) = t := by
  revert t; decide

@[simp] theorem identMessageType_identWord (mt : BitVec 8) (x : IdentFields) :
    identMessageType (identWord mt x) = mt := by
  apply BitVec.eq_of_getLsbD_eq
  intro i hi
  simp only [identMessageType, identWord, BitVec.getLsbD_extractLsb', BitVec.getLsbD_append]
  interval_cases i <;> simp

@[simp] theorem identFields_identWord (mt : BitVec 8) (x : IdentFields) : identFields (identWord mt x) = x := by
  obtain ⟨a, b, c, d⟩ := x
  simp only [identFields, identWord, IdentFields.mk.injEq]
  refine ⟨?_, ?_, ?_, ?_⟩ <;>
  · apply BitVec.eq_of_getLsbD_eq
    intro i hi
    simp only [BitVec.getLsbD_extractLsb', BitVec.getLsbD_append]
    interval_cases i <;> simp

/-- An identifier word is its message_type and its other fields. -/
theorem identWord_fields (id : BitVec 32) : identWord (identMessageType id) (identFields id) = id := by
  apply BitVec.eq_of_getLsbD_eq
  intro i hi
  simp only [identFields, identMessageType, identWord, BitVec.getLsbD_append, BitVec.getLsbD_extractLsb']
  interval_cases i <;> simp

/-! ### Operands -/

@[simp] theorem nat_zero (bs : Bytes) (n : Nat) (l : List Nat) : Bundle.nat ⟨bs, n :: l⟩ 0 = n := rfl

@[simp] theorem nat_succ (bs : Bytes) (n k : Nat) (l : List Nat) :
    Bundle.nat ⟨bs, n :: l⟩ (k + 1) = Bundle.nat ⟨bs, l⟩ k := rfl

@[simp] theorem word_zero (bs : Bytes) (w : Nat) (x : BitVec w) (l : List Nat) :
    Bundle.word ⟨bs, x.toNat :: l⟩ w 0 = x := by simp [Bundle.word]

@[simp] theorem word_succ (bs : Bytes) (w n k : Nat) (l : List Nat) :
    Bundle.word ⟨bs, n :: l⟩ w (k + 1) = Bundle.word ⟨bs, l⟩ w k := rfl

@[simp] theorem flag_zero (bs : Bytes) (x : Bool) (l : List Nat) : Bundle.flag ⟨bs, x.toNat :: l⟩ 0 = x := by
  cases x <;> rfl

@[simp] theorem flag_succ (bs : Bytes) (n k : Nat) (l : List Nat) :
    Bundle.flag ⟨bs, n :: l⟩ (k + 1) = Bundle.flag ⟨bs, l⟩ k := rfl

@[simp] theorem numsFit_nil : numsFit [] [] = true := rfl

@[simp] theorem numsFit_word (w : Nat) (x : BitVec w) (ws : List (Option Nat)) (ns : List Nat) :
    numsFit (some w :: ws) (x.toNat :: ns) = numsFit ws ns := by simp [numsFit, x.isLt]

@[simp] theorem numsFit_flag (x : Bool) (ws : List (Option Nat)) (ns : List Nat) :
    numsFit (some 1 :: ws) (x.toNat :: ns) = numsFit ws ns := by cases x <;> rfl

@[simp] theorem numsFit_none (n : Nat) (ws : List (Option Nat)) (ns : List Nat) :
    numsFit (none :: ws) (n :: ns) = numsFit ws ns := rfl

/-- What fits ports of one width more is a number below its power of two, then what fits the rest. -/
theorem numsFit_some {w : Nat} {ws : List (Option Nat)} {l : List Nat} (h : numsFit (some w :: ws) l = true) :
    ∃ n ns, l = n :: ns ∧ n < 2 ^ w ∧ numsFit ws ns = true := by
  cases l with
  | nil => simp [numsFit] at h
  | cons n ns => exact ⟨n, ns, rfl, by simpa [numsFit] using h⟩

theorem numsFit_any {ws : List (Option Nat)} {l : List Nat} (h : numsFit (none :: ws) l = true) :
    ∃ n ns, l = n :: ns ∧ numsFit ws ns = true := by
  cases l with
  | nil => simp [numsFit] at h
  | cons n ns => exact ⟨n, ns, rfl, h⟩

theorem numsFit_end {l : List Nat} (h : numsFit [] l = true) : l = [] := by
  cases l with
  | nil => rfl
  | cons n ns => simp [numsFit] at h

/-- A bundle the operation takes. -/
theorem accept_ok {b : Bundle} {most : Option Nat} {ws : List (Option Nat)} {i : Instr}
    (h1 : bytesFit most b.bytes = true) (h2 : numsFit ws b.nums = true) : accept b most ws i = .ok i := by
  simp [accept, h1, h2]

/-- Everything `accept` can answer. -/
theorem accept_eq_ok {b : Bundle} {most : Option Nat} {ws : List (Option Nat)} {i j : Instr} :
    accept b most ws i = .ok j ↔ bytesFit most b.bytes = true ∧ numsFit ws b.nums = true ∧ j = i := by
  unfold accept
  by_cases h1 : bytesFit most b.bytes = true <;> by_cases h2 : numsFit ws b.nums = true <;>
    simp [h1, h2, eq_comm]

end Sys2Proof
end

