-- ==== Sys2Proof/Laws/Memory.lean ====
section
/-! SUPPORT. The byte buffers: what a read sees after a write, that every write keeps the canonical form, and that buffers in
that form which read alike are equal. -/

namespace Sys2Proof.Machine

/-! ### Single bytes -/

@[simp] theorem read_atReset (size a : Nat) : (Memory.atReset size).read a = Config.unwritten := rfl

theorem readCells_filter (a x : Nat) (cs : List Host.Cell) :
    readCells x (cs.filter fun c => c.1 != a) = if x = a then Config.unwritten else readCells x cs := by
  induction cs with
  | nil => simp [readCells]
  | cons c cs ih =>
    by_cases hc : c.1 = a
    · rw [List.filter_cons_of_neg (by simp [hc]), ih]
      split
      · rfl
      · rename_i hx; rw [readCells, if_neg (by omega)]
    · rw [List.filter_cons_of_pos (by simp [hc]), readCells, ih, readCells]
      by_cases hx : x = c.1
      · rw [if_pos hx, if_neg (by omega), if_pos hx]
      · rw [if_neg hx, if_neg hx]

theorem readCells_insertCell (c : Host.Cell) (x : Nat) (cs : List Host.Cell) (h : ∀ y ∈ cs, y.1 ≠ c.1) :
    readCells x (insertCell c cs) = if x = c.1 then c.2 else readCells x cs := by
  induction cs with
  | nil => rfl
  | cons y cs ih =>
    simp only [insertCell]
    split
    · rfl
    · rw [readCells, ih fun z hz => h z (List.mem_cons_of_mem _ hz), readCells]
      have hy := h y List.mem_cons_self
      by_cases hx : x = y.1
      · rw [if_pos hx, if_neg (by omega), if_pos hx]
      · rw [if_neg hx, if_neg hx]

/-- What a read sees after a write. -/
theorem read_write {size : Nat} (m : Memory size) (a x : Nat) (b : Byte) :
    (m.write a b).read x = if x = a then b else m.read x := by
  unfold Memory.write Memory.read
  by_cases hb : b = Config.unwritten
  · subst hb; exact readCells_filter a x m.cells
  · simp only [if_neg hb]
    rw [readCells_insertCell _ _ _ (by simp), readCells_filter]
    split <;> rfl

/-! ### The canonical form -/

theorem wfCells_cons {size lo : Nat} {c : Host.Cell} {cs : List Host.Cell} :
    wfCells size lo (c :: cs) = true ↔
      lo ≤ c.1 ∧ c.1 < size ∧ c.2 ≠ Config.unwritten ∧ wfCells size (c.1 + 1) cs = true := by
  simp [wfCells, and_assoc]

theorem wfCells_mono {size lo lo' : Nat} {cs : List Host.Cell} (h : wfCells size lo cs = true) (hl : lo' ≤ lo) :
    wfCells size lo' cs = true := by
  cases cs with
  | nil => rfl
  | cons c cs => rw [wfCells_cons] at h ⊢; exact ⟨by omega, h.2⟩

theorem wfCells_filter {size lo : Nat} {cs : List Host.Cell} (p : Host.Cell → Bool) (h : wfCells size lo cs = true) :
    wfCells size lo (cs.filter p) = true := by
  induction cs generalizing lo with
  | nil => rfl
  | cons c cs ih =>
    rw [wfCells_cons] at h
    by_cases hp : p c = true
    · rw [List.filter_cons_of_pos hp, wfCells_cons]; exact ⟨h.1, h.2.1, h.2.2.1, ih h.2.2.2⟩
    · rw [List.filter_cons_of_neg hp]; exact wfCells_mono (ih h.2.2.2) (by omega)

theorem wfCells_insertCell {size lo : Nat} {c : Host.Cell} {cs : List Host.Cell} (h : wfCells size lo cs = true)
    (hn : ∀ y ∈ cs, y.1 ≠ c.1) (hlo : lo ≤ c.1) (hsize : c.1 < size) (hb : c.2 ≠ Config.unwritten) :
    wfCells size lo (insertCell c cs) = true := by
  induction cs generalizing lo with
  | nil => exact wfCells_cons.mpr ⟨hlo, hsize, hb, rfl⟩
  | cons y cs ih =>
    obtain ⟨h1, h2, h3, h4⟩ := wfCells_cons.mp h
    simp only [insertCell]
    split
    · exact wfCells_cons.mpr ⟨hlo, hsize, hb, wfCells_cons.mpr ⟨by omega, h2, h3, h4⟩⟩
    · have := hn y List.mem_cons_self
      exact wfCells_cons.mpr ⟨h1, h2, h3, ih h4 (fun z hz => hn z (List.mem_cons_of_mem _ hz)) (by omega)⟩

theorem wf_atReset (size : Nat) : (Memory.atReset size).wf = true := rfl

/-- Every write inside the buffer keeps the canonical form. -/
theorem wf_write {size a : Nat} {m : Memory size} (b : Byte) (hm : m.wf = true) (ha : a < size) :
    (m.write a b).wf = true := by
  unfold Memory.wf Memory.write
  by_cases hb : b = Config.unwritten
  · simp only [if_pos hb]; exact wfCells_filter _ hm
  · simp only [if_neg hb]
    exact wfCells_insertCell (wfCells_filter _ hm) (by simp) (Nat.zero_le a) ha hb

theorem wf_writeBytes {size i : Nat} {m : Memory size} {bs : Bytes} (hm : m.wf = true) (hi : i + bs.length ≤ size) :
    (m.writeBytes i bs).wf = true := by
  induction bs generalizing m i with
  | nil => exact hm
  | cons b bs ih =>
    simp only [List.length_cons] at hi
    exact ih (wf_write b hm (by omega)) (by omega)

theorem readCells_of_lt {size lo a : Nat} {cs : List Host.Cell} (h : wfCells size lo cs = true) (ha : a < lo) :
    readCells a cs = Config.unwritten := by
  induction cs generalizing lo with
  | nil => rfl
  | cons c cs ih =>
    obtain ⟨h1, _, _, h4⟩ := wfCells_cons.mp h
    rw [readCells, if_neg (by omega)]
    exact ih h4 (by omega)

/-- In canonical form the bytes determine the cells. -/
theorem cells_eq_of_readCells {size lo : Nat} {cs ds : List Host.Cell} (hc : wfCells size lo cs = true)
    (hd : wfCells size lo ds = true) (h : ∀ a, readCells a cs = readCells a ds) : cs = ds := by
  induction cs generalizing lo ds with
  | nil =>
    cases ds with
    | nil => rfl
    | cons d ds =>
      have := h d.1
      rw [readCells, readCells, if_pos rfl] at this
      exact absurd this.symm (wfCells_cons.mp hd).2.2.1
  | cons c cs ih =>
    obtain ⟨c1, _, c3, c4⟩ := wfCells_cons.mp hc
    cases ds with
    | nil =>
      have := h c.1
      rw [readCells, readCells, if_pos rfl] at this
      exact absurd this c3
    | cons d ds =>
      obtain ⟨d1, _, d3, d4⟩ := wfCells_cons.mp hd
      have hcd := h c.1
      have hdc := h d.1
      simp only [readCells, if_true] at hcd hdc
      have h1 : c.1 = d.1 := by
        rcases Nat.lt_trichotomy c.1 d.1 with hl | he | hl
        · rw [if_neg (by omega), readCells_of_lt d4 (by omega)] at hcd; exact absurd hcd c3
        · exact he
        · rw [if_neg (by omega), readCells_of_lt c4 (by omega)] at hdc; exact absurd hdc.symm d3
      rw [if_pos h1] at hcd
      have h2 : cs = ds := by
        refine ih c4 (h1 ▸ d4) fun a => ?_
        by_cases ha : a < c.1 + 1
        · rw [readCells_of_lt c4 ha, readCells_of_lt d4 (by omega)]
        · have := h a
          rwa [readCells, readCells, if_neg (by omega), if_neg (by omega)] at this
      rw [h2, Prod.ext h1 hcd]

/-- Buffers in canonical form that read alike are the same data. -/
theorem memory_ext {size : Nat} {m n : Memory size} (hm : m.wf = true) (hn : n.wf = true)
    (h : ∀ a, m.read a = n.read a) : m = n := by
  obtain ⟨cs⟩ := m
  obtain ⟨ds⟩ := n
  exact congrArg Memory.mk (cells_eq_of_readCells hm hn h)

/-! ### Byte sequences -/

@[simp] theorem length_readBytes {size : Nat} (m : Memory size) (i n : Nat) : (m.readBytes i n).length = n := by
  simp [Memory.readBytes]

theorem getElem?_readBytes {size : Nat} (m : Memory size) (i n k : Nat) :
    (m.readBytes i n)[k]? = if k < n then some (m.read (i + k)) else none := by
  simp only [Memory.readBytes, List.getElem?_map]
  split
  · rw [List.getElem?_range ‹_›]; rfl
  · rw [List.getElem?_eq_none (by simp; omega)]; rfl

/-- What `readBytes` answers: the bytes at its addresses. -/
theorem readBytes_eq_iff {size : Nat} {m : Memory size} {i n : Nat} {bs : Bytes} :
    m.readBytes i n = bs ↔ bs.length = n ∧ ∀ k < n, some (m.read (i + k)) = bs[k]? := by
  constructor
  · rintro rfl
    exact ⟨by simp, fun k hk => by rw [getElem?_readBytes, if_pos hk]⟩
  · rintro ⟨hl, h⟩
    apply List.ext_getElem?
    intro k
    rw [getElem?_readBytes]
    split
    · exact h k ‹_›
    · rw [List.getElem?_eq_none (by omega)]

theorem read_writeBytes {size : Nat} (m : Memory size) (i x : Nat) (bs : Bytes) :
    (m.writeBytes i bs).read x = if i ≤ x ∧ x < i + bs.length then bs.getD (x - i) 0 else m.read x := by
  induction bs generalizing m i with
  | nil => rw [if_neg (by simp)]; rfl
  | cons b bs ih =>
    simp only [Memory.writeBytes, ih, read_write, List.length_cons]
    by_cases hx : x = i
    · subst x; simp
    · by_cases h : i + 1 ≤ x ∧ x < i + 1 + bs.length
      · have : x - i = (x - (i + 1)) + 1 := by omega
        rw [if_pos h, if_pos (by omega), this, List.getD_cons_succ]
      · rw [if_neg h, if_neg hx, if_neg (by omega)]

/-- A part of a range reads as that part. -/
theorem readBytes_sub {size : Nat} (m : Memory size) {n i k : Nat} (hik : i + k ≤ n) :
    m.readBytes i k = ((m.readBytes 0 n).drop i).take k := by
  refine readBytes_eq_iff.mpr ⟨by simp; omega, fun j hj => ?_⟩
  rw [List.getElem?_take, if_pos hj, List.getElem?_drop, getElem?_readBytes, if_pos (by omega), Nat.zero_add]

/-- A body written from address 0 reads back. -/
theorem readBytes_writeBytes {size : Nat} (m : Memory size) (bs : Bytes) :
    (m.writeBytes 0 bs).readBytes 0 bs.length = bs := by
  refine readBytes_eq_iff.mpr ⟨rfl, fun k hk => ?_⟩
  rw [read_writeBytes, if_pos (by omega)]
  simp [List.getD_eq_getElem?_getD, hk]

/-- Bytes appended to a body read back after it. -/
theorem readBytes_append {size : Nat} (m : Memory size) (n : Nat) (bs : Bytes) :
    (m.writeBytes n bs).readBytes 0 (n + bs.length) = m.readBytes 0 n ++ bs := by
  refine readBytes_eq_iff.mpr ⟨by simp, fun k hk => ?_⟩
  rw [read_writeBytes, Nat.zero_add]
  by_cases hkn : k < n
  · rw [if_neg (by omega), List.getElem?_append_left (by simpa using hkn), getElem?_readBytes, if_pos hkn, Nat.zero_add]
  · have : k - n < bs.length := by omega
    rw [if_pos (by omega), List.getElem?_append_right (by simp; omega)]
    simp [List.getD_eq_getElem?_getD, this]

end Sys2Proof.Machine
end

