-- ==== Sys2Proof/Laws/State.lean ====
section
/-! SUPPORT. One lemma per field per update of the state, and what each way of ending an operation answers. -/

namespace Sys2Proof.Machine

@[simp] theorem setTx_tx (s : State) (t : TxUnit) : (s.setTx t).tx = t := rfl
@[simp] theorem setTx_rx (s : State) (t : TxUnit) : (s.setTx t).rx = s.rx := rfl
@[simp] theorem setTx_params (s : State) (t : TxUnit) : (s.setTx t).params = s.params := rfl
@[simp] theorem setTx_requests (s : State) (t : TxUnit) : (s.setTx t).requests = s.requests := rfl
@[simp] theorem setTx_result (s : State) (t : TxUnit) : (s.setTx t).result = s.result := rfl

@[simp] theorem setRx_tx (s : State) (r : RxUnit) : (s.setRx r).tx = s.tx := rfl
@[simp] theorem setRx_rx (s : State) (r : RxUnit) : (s.setRx r).rx = r := rfl
@[simp] theorem setRx_params (s : State) (r : RxUnit) : (s.setRx r).params = s.params := rfl
@[simp] theorem setRx_requests (s : State) (r : RxUnit) : (s.setRx r).requests = s.requests := rfl
@[simp] theorem setRx_result (s : State) (r : RxUnit) : (s.setRx r).result = s.result := rfl

@[simp] theorem setResult_tx (s : State) (r : Result) : (s.setResult r).tx = s.tx := rfl
@[simp] theorem setResult_rx (s : State) (r : Result) : (s.setResult r).rx = s.rx := rfl
@[simp] theorem setResult_params (s : State) (r : Result) : (s.setResult r).params = s.params := rfl
@[simp] theorem setResult_requests (s : State) (r : Result) : (s.setResult r).requests = s.requests := rfl
@[simp] theorem setResult_result (s : State) (r : Result) : (s.setResult r).result = r := rfl

@[simp] theorem setRequests_tx (s : State) (q : List Request) : (s.setRequests q).tx = s.tx := rfl
@[simp] theorem setRequests_rx (s : State) (q : List Request) : (s.setRequests q).rx = s.rx := rfl
@[simp] theorem setRequests_params (s : State) (q : List Request) : (s.setRequests q).params = s.params := rfl
@[simp] theorem setRequests_requests (s : State) (q : List Request) : (s.setRequests q).requests = q := rfl
@[simp] theorem setRequests_result (s : State) (q : List Request) : (s.setRequests q).result = s.result := rfl

/-! ### The ways an operation ends -/

theorem deliver_next {s t : State} {r : Result} : s.deliver r = .next t ↔ t = s.setResult r := by
  simp [State.deliver, eq_comm]

theorem deliverRx_next {s t : State} {rx : RxUnit} {m : Option ReceivedMessage} :
    s.deliverRx rx m = .next t ↔ t = (s.setRx rx).setResult (.received m) := by
  simp [State.deliverRx, eq_comm]

theorem deliverTx_next {s t : State} {u : TxUnit} {r : Result} :
    s.deliverTx u r = .next t ↔ t = (s.setTx u).setResult r := by
  simp [State.deliverTx, eq_comm]

end Sys2Proof.Machine
end

