-- ==== Sys2Proof/Laws/Slots.lean ====
section
/-! SUPPORT. The slot file: what a slot holds after a slot is written or cleared, and what `LOOKUP` selects
(45_rx_decoder.md R267, R268). -/

namespace Sys2Proof.Machine

/-! ### Slots after an update -/

theorem setSlot_get (rx : RxUnit) (k j : Fin 8) (sl : Slot) : slotAt (setSlot rx k sl) j = if j = k then sl else slotAt rx j := by
  unfold setSlot slotAt
  by_cases h : j = k
  · subst h; simp
  · have : k.val ≠ j.val := fun e => h (Fin.ext e.symm)
    rw [if_neg h]; simp [this]

@[simp] theorem setSlot_get_self (rx : RxUnit) (k : Fin 8) (sl : Slot) : slotAt (setSlot rx k sl) k = sl := by
  rw [setSlot_get, if_pos rfl]

theorem setSlot_get_of_ne (rx : RxUnit) {k j : Fin 8} (sl : Slot) (h : j ≠ k) : slotAt (setSlot rx k sl) j = slotAt rx j := by
  rw [setSlot_get, if_neg h]

theorem clearSlot_get (rx : RxUnit) (k j : Fin 8) :
    slotAt (clearSlot rx k) j = if j = k then (slotAt rx k).clear else slotAt rx j := setSlot_get ..

@[simp] theorem clearSlot_get_self (rx : RxUnit) (k : Fin 8) : slotAt (clearSlot rx k) k = (slotAt rx k).clear := setSlot_get_self ..

@[simp] theorem clearAll_get (rx : RxUnit) (k : Fin 8) : slotAt (clearAll rx) k = (slotAt rx k).clear := by simp [clearAll, slotAt]

@[simp] theorem clear_occ (sl : Slot) : sl.clear.occ = false := rfl
@[simp] theorem clear_id (sl : Slot) : sl.clear.id = sl.id := rfl
@[simp] theorem clear_ts (sl : Slot) : sl.clear.ts = sl.ts := rfl
@[simp] theorem clear_crc (sl : Slot) : sl.clear.crc = sl.crc := rfl
@[simp] theorem clear_buf (sl : Slot) : sl.clear.buf = sl.buf := rfl
@[simp] theorem clear_len (sl : Slot) : sl.clear.len = sl.len := rfl

@[simp] theorem setSlot_setSlot (rx : RxUnit) (k : Fin 8) (a b : Slot) : setSlot (setSlot rx k a) k b = setSlot rx k b := by
  simp [setSlot]

/-- Two slot files are equal if all their slots are. -/
theorem rx_ext {a b : RxUnit} (h : ∀ k : Fin 8, slotAt a k = slotAt b k) : a = b := by
  apply Vector.ext
  intro i hi
  exact h ⟨i, hi⟩

@[simp] theorem atReset_get (k : Fin 8) : slotAt RxUnit.atReset k = Slot.atReset := by simp [RxUnit.atReset, slotAt]

theorem holds_iff (rx : RxUnit) (k : Fin 8) (id : BitVec 29) :
    holds rx k id = true ↔ (slotAt rx k).occ = true ∧ (slotAt rx k).id = id := by simp [holds]

/-! ### The first slot with a property -/

theorem mem_slotIndices (k : Fin 8) : k ∈ slotIndices := by revert k; decide

theorem slotIndices_sorted : slotIndices.Pairwise (· < ·) := by decide

theorem find_slotIndices_some {p : Fin 8 → Bool} {k : Fin 8} (h : slotIndices.find? p = some k) :
    p k = true ∧ ∀ j < k, p j = false := by
  obtain ⟨hk, as, bs, hl, has⟩ := List.find?_eq_some_iff_append.mp h
  refine ⟨hk, fun j hj => ?_⟩
  have hm := mem_slotIndices j
  have hs := slotIndices_sorted
  rw [hl] at hm hs
  rcases List.mem_append.mp hm with hm | hm
  · simpa using has j hm
  · rcases List.mem_cons.mp hm with rfl | hm
    · exact absurd hj (lt_irrefl _)
    · have := (List.pairwise_cons.mp (List.pairwise_append.mp hs).2.1).1 j hm
      exact absurd hj (lt_asymm this)

theorem find_slotIndices_none {p : Fin 8 → Bool} : slotIndices.find? p = none ↔ ∀ k, p k = false := by
  simp only [List.find?_eq_none, Bool.not_eq_true]
  exact ⟨fun h k => h k (mem_slotIndices k), fun h k _ => h k⟩

theorem find_slotIndices_eq {p : Fin 8 → Bool} {k : Fin 8} (hk : p k = true) (hj : ∀ j < k, p j = false) :
    slotIndices.find? p = some k := by
  cases h : slotIndices.find? p with
  | none => rw [find_slotIndices_none] at h; simp [h k] at hk
  | some j =>
    obtain ⟨h1, h2⟩ := find_slotIndices_some h
    rcases lt_trichotomy j k with h3 | h3 | h3
    · simp [hj j h3] at h1
    · rw [h3]
    · simp [h2 k h3] at hk

/-! ### The oldest slot -/

theorem lru_scan (rx : RxUnit) (l : List (Fin 8)) (best : Fin 8) (hs : (best :: l).Pairwise (· < ·)) :
    let r := l.foldl (fun best k => if opensEarlier rx k best then k else best) best
    r ∈ best :: l ∧ (∀ j ∈ best :: l, (slotAt rx r).ts.toNat ≤ (slotAt rx j).ts.toNat ∧
      ((slotAt rx j).ts = (slotAt rx r).ts → r ≤ j)) := by
  induction l generalizing best with
  | nil => simp
  | cons k l ih =>
    simp only [List.foldl_cons]
    obtain ⟨hb, hkl⟩ := List.pairwise_cons.mp hs
    obtain ⟨hk, hl⟩ := List.pairwise_cons.mp hkl
    by_cases h : opensEarlier rx k best = true
    · simp only [if_pos h]
      obtain ⟨h1, h2⟩ := ih k hkl
      simp only [opensEarlier, decide_eq_true_eq, BitVec.lt_def] at h
      refine ⟨List.mem_cons_of_mem _ h1, fun j hj => ?_⟩
      rcases List.mem_cons.mp hj with rfl | hj
      · have h3 := (h2 k (by simp)).1
        refine ⟨by omega, fun e => ?_⟩
        rw [e] at h; omega
      · exact h2 j hj
    · simp only [if_neg h]
      simp only [opensEarlier, decide_eq_true_eq, BitVec.lt_def] at h
      obtain ⟨h1, h2⟩ := ih best (List.pairwise_cons.mpr ⟨fun j hj => hb j (by simp [hj]), hl⟩)
      refine ⟨?_, fun j hj => ?_⟩
      · rcases List.mem_cons.mp h1 with h1 | h1 <;> simp [h1]
      · rcases List.mem_cons.mp hj with rfl | hj
        · exact h2 _ (by simp)
        · rcases List.mem_cons.mp hj with rfl | hj
          · have h3 := h2 best (by simp)
            refine ⟨by omega, fun e => ?_⟩
            have h4 := congrArg BitVec.toNat e
            exact le_trans (h3.2 (BitVec.eq_of_toNat_eq (by omega))) (le_of_lt (hb _ (by simp)))
          · exact h2 j (by simp [hj])

/-- What `LRU` selects (R268, decision D6): the smallest `ts`, and among equals the least index. -/
theorem lru_spec (rx : RxUnit) (j : Fin 8) :
    (slotAt rx (lru rx)).ts.toNat ≤ (slotAt rx j).ts.toNat ∧
      ((slotAt rx j).ts = (slotAt rx (lru rx)).ts → lru rx ≤ j) := by
  have h := lru_scan rx [1, 2, 3, 4, 5, 6, 7] 0 (by decide)
  have h0 : opensEarlier rx 0 0 = false := by simp [opensEarlier]
  have he : lru rx = [1, 2, 3, 4, 5, 6, 7].foldl (fun best k => if opensEarlier rx k best then k else best) 0 := by
    simp only [lru, slotIndices, List.foldl_cons]
    rw [h0]; rfl
  rw [he]
  exact h.2 j (mem_slotIndices j)

theorem lru_eq {rx : RxUnit} {k : Fin 8} (hmin : ∀ j : Fin 8, (slotAt rx k).ts.toNat ≤ (slotAt rx j).ts.toNat)
    (hfirst : ∀ j < k, (slotAt rx j).ts ≠ (slotAt rx k).ts) : lru rx = k := by
  have h := lru_spec rx k
  have h1 := hmin (lru rx)
  have h2 : (slotAt rx k).ts = (slotAt rx (lru rx)).ts := BitVec.eq_of_toNat_eq (by omega)
  rcases lt_or_eq_of_le (h.2 h2) with h3 | h3
  · exact absurd h2.symm (hfirst _ h3)
  · exact h3

/-! ### Lookup -/

/-- Step 1 of `LOOKUP` (R267). -/
theorem lookup_own {rx : RxUnit} {id : BitVec 29} {k : Fin 8} (hk : holds rx k id = true)
    (hu : ∀ j < k, holds rx j id = false) : lookup rx id = k := by
  simp [lookup, ownSlot, find_slotIndices_eq hk hu]

/-- Step 2 of `LOOKUP` (R267). -/
theorem lookup_empty {rx : RxUnit} {id : BitVec 29} {k : Fin 8} (hn : ∀ j, holds rx j id = false)
    (hk : (slotAt rx k).occ = false) (hf : ∀ j < k, (slotAt rx j).occ = true) : lookup rx id = k := by
  have h1 : ownSlot rx id = none := find_slotIndices_none.mpr hn
  have h2 : firstEmpty rx = some k := find_slotIndices_eq (by simp [hk]) (fun j hj => by simp [hf j hj])
  simp [lookup, h1, h2]

/-- Step 3 of `LOOKUP` (R267). -/
theorem lookup_full {rx : RxUnit} {id : BitVec 29} (hn : ∀ j, holds rx j id = false)
    (hf : ∀ j : Fin 8, (slotAt rx j).occ = true) : lookup rx id = lru rx := by
  have h1 : ownSlot rx id = none := find_slotIndices_none.mpr hn
  have h2 : firstEmpty rx = none := find_slotIndices_none.mpr (fun j => by simp [hf j])
  simp [lookup, h1, h2]

/-- The three steps of `LOOKUP`, one of which applies (R267). -/
theorem lookup_cases (rx : RxUnit) (id : BitVec 29) :
    (holds rx (lookup rx id) id = true) ∨
    ((∀ j, holds rx j id = false) ∧ (slotAt rx (lookup rx id)).occ = false ∧ ∀ j < lookup rx id, (slotAt rx j).occ = true) ∨
    ((∀ j, holds rx j id = false) ∧ (∀ j : Fin 8, (slotAt rx j).occ = true) ∧ lookup rx id = lru rx) := by
  cases h1 : ownSlot rx id with
  | some k =>
    have h2 := find_slotIndices_some h1
    left; rw [lookup_own h2.1 h2.2]; exact h2.1
  | none =>
    have h2 := find_slotIndices_none.mp h1
    right
    cases h3 : firstEmpty rx with
    | some k =>
      obtain ⟨h4, h5⟩ := find_slotIndices_some h3
      have h6 : lookup rx id = k := lookup_empty h2 (by simpa using h4) (fun j hj => by simpa using h5 j hj)
      left; rw [h6]
      exact ⟨h2, by simpa using h4, fun j hj => by simpa using h5 j hj⟩
    | none =>
      have h4 : ∀ j : Fin 8, (slotAt rx j).occ = true := fun j => by simpa using find_slotIndices_none.mp h3 j
      right; exact ⟨h2, h4, lookup_full h2 h4⟩

end Sys2Proof.Machine
end

