-- ==== Sys2Proof/Laws/Meanings.lean ====
section
/-! SUPPORT. For each shared operation, once, everything it can answer: cite these instead of unfolding it. -/

namespace Sys2Proof.Machine

/-! ### Operand forms -/

theorem putBigEndian_next {n i v : Nat} {B : Bytes} {s t : State} :
    putBigEndian n B i v s = .next t ↔
      i + n ≤ B.length ∧ t = s.setResult (.bytes (spliceBytes B i (beBytes n v))) := by
  unfold putBigEndian
  split
  · simp; omega
  · rw [deliver_next]; exact ⟨fun h => ⟨by omega, h⟩, fun h => h.2⟩

theorem getBigEndian_next {n i : Nat} {B : Bytes} {f : Nat → Result} {s t : State} :
    getBigEndian n B i f s = .next t ↔ i + n ≤ B.length ∧ t = s.setResult (f (beValue (sliceBytes B i n))) := by
  unfold getBigEndian
  split
  · simp; omega
  · rw [deliver_next]; exact ⟨fun h => ⟨by omega, h⟩, fun h => h.2⟩

theorem unpackWith_next {n : Nat} {B : Bytes} {f : Bytes → Result} {s t : State} :
    unpackWith n B f s = .next t ↔ n ≤ B.length ∧ t = s.setResult (f B) := by
  unfold unpackWith
  split
  · simp; omega
  · rw [deliver_next]; exact ⟨fun h => ⟨by omega, h⟩, fun h => h.2⟩

theorem packOpaque_next {c : MsgClass} {body : Bytes} {s t : State} :
    packOpaque c body s = .next t ↔ body.length = sizeBytes c ∧ t = s.setResult (.bytes body) := by
  unfold packOpaque
  split
  · rename_i h; simp; intro h'; exact absurd h' h
  · rename_i h; rw [deliver_next]; exact ⟨fun h' => ⟨not_not.mp h, h'⟩, fun h' => h'.2⟩

theorem unpackOpaque_next {c : MsgClass} {B : Bytes} {s t : State} :
    unpackOpaque c B s = .next t ↔ sizeBytes c ≤ B.length ∧ t = s.setResult (.bytes (B.take (sizeBytes c))) :=
  unpackWith_next

/-! ### The TX unit -/

theorem txEmit_next {s t : State} {pre : Bytes} {count : Nat} {tail : Byte} {o : Fin 65} {g : Bool} :
    txEmit s pre count tail o g = .next t ↔
      t = (s.setTx { s.tx with offset := o, toggle := g }).setResult
        (.frame s.tx.id (pre ++ s.tx.buf.readBytes s.tx.offset count ++ [tail])) :=
  deliverTx_next

/-- `TX_NEXT` (44_tx_encoder.md R242): refused, SINGLE, FIRST, LAST or MIDDLE. -/
theorem execTxNext_cases (s : State) :
    (s.tx.len.val ≤ s.tx.offset.val ∧ execTxNext s = .refused .nothingToSend) ∨
    (s.tx.offset.val < s.tx.len.val ∧ s.tx.offset = 0 ∧ s.tx.len.val ≤ 7 ∧
      execTxNext s = txEmit s [] s.tx.len (txTail true true false) s.tx.len s.tx.toggle) ∨
    (s.tx.offset = 0 ∧ 8 ≤ s.tx.len.val ∧
      execTxNext s = txEmit s (crcPrefix s.tx.crc) 5 (txTail true false false) 5 (!s.tx.toggle)) ∨
    (s.tx.offset ≠ 0 ∧ s.tx.offset.val < s.tx.len.val ∧ s.tx.len.val ≤ s.tx.offset.val + 7 ∧
      execTxNext s =
        txEmit s [] (s.tx.len - s.tx.offset) (txTail false true s.tx.toggle) s.tx.len (!s.tx.toggle)) ∨
    (s.tx.offset ≠ 0 ∧ ∃ h : s.tx.offset.val + 7 < s.tx.len.val,
      execTxNext s =
        txEmit s [] 7 (txTail false false s.tx.toggle) ⟨s.tx.offset.val + 7, by omega⟩ (!s.tx.toggle)) := by
  unfold execTxNext
  simp only
  by_cases h1 : s.tx.offset < s.tx.len
  · have h1' : s.tx.offset.val < s.tx.len.val := h1
    rw [if_pos h1]
    by_cases h2 : s.tx.offset = 0
    · by_cases h3 : s.tx.len.val ≤ 7
      · exact .inr (.inl ⟨h1', h2, h3, by rw [if_pos ⟨h2, h3⟩]⟩)
      · exact .inr (.inr (.inl ⟨h2, by omega, by rw [if_neg (fun h => h3 h.2), if_pos h2]⟩))
    · rw [if_neg (fun h => h2 h.1), if_neg h2]
      by_cases h3 : s.tx.len.val ≤ s.tx.offset.val + 7
      · exact .inr (.inr (.inr (.inl ⟨h2, h1', h3, by rw [dif_pos h3]⟩)))
      · exact .inr (.inr (.inr (.inr ⟨h2, by omega, by rw [dif_neg h3]⟩)))
  · exact .inl ⟨Nat.le_of_not_lt h1, by rw [if_neg h1]⟩

/-! ### The RX unit -/

/-- The slot file after a frame met an empty slot (R269, R270). -/
theorem handleEmpty_cases (rx : RxUnit) (k : Fin 8) (id : BitVec 29) (d : Bytes) (tail : Byte) (ts : BitVec 64)
    (h : d.length ≤ 8) :
    (isOpening d tail = true ∧
      handleEmpty rx k id d tail ts h = setSlot rx k (openedSlot (slotAt rx k) id d ts h)) ∨
    (isOpening d tail = false ∧ handleEmpty rx k id d tail ts h = rx) := by
  unfold handleEmpty
  by_cases ho : isOpening d tail = true
  · left; simp [ho]
  · right; simp [ho]

theorem isOpening_iff (d : Bytes) (tail : Byte) :
    isOpening d tail = true ↔
      tailSot tail = true ∧ tailEot tail = false ∧ tailTog tail = false ∧ 4 ≤ d.length := by
  simp [isOpening, and_assoc]

/-- The end of a transfer (R275): the slot is cleared on every path. -/
theorem complete_eq (s : State) (k : Fin 8) :
    complete s k = .next ((s.setRx (clearSlot s.rx k)).setResult (.received
      (if crc16 ((slotAt s.rx k).buf.readBytes 0 (slotAt s.rx k).len) = (slotAt s.rx k).crc then
        (decodeMessage s.params (messageTypeOfId (slotAt s.rx k).id)
          ((slotAt s.rx k).buf.readBytes 0 (slotAt s.rx k).len)).map fun m =>
            { id := (slotAt s.rx k).id, crc := crc16 ((slotAt s.rx k).buf.readBytes 0 (slotAt s.rx k).len), msg := m }
      else none))) := by
  unfold complete
  simp only [ne_eq, ite_not]
  split <;> rfl

/-- A slot occupied by the frame's own identifier (R271 to R275): dropped, overflow, append, or the end of the transfer. -/
theorem handleOwn_cases (s : State) (k : Fin 8) (d : Bytes) (tail : Byte) :
    ((tailTog tail ≠ expectedToggle s.params (slotAt s.rx k).len ∨ tailSot tail = true) ∧
      handleOwn s k d tail = .next ((s.setRx s.rx).setResult (.received none))) ∨
    (tailTog tail = expectedToggle s.params (slotAt s.rx k).len ∧ tailSot tail = false ∧
      256 < (slotAt s.rx k).len.val + (d.length - 1) ∧
      handleOwn s k d tail = .next ((s.setRx (clearSlot s.rx k)).setResult (.received none))) ∨
    (tailTog tail = expectedToggle s.params (slotAt s.rx k).len ∧ tailSot tail = false ∧
      ∃ h : (slotAt s.rx k).len.val + (d.length - 1) ≤ 256,
        (tailEot tail = true ∧
          handleOwn s k d tail = complete (s.setRx (setSlot s.rx k (appended (slotAt s.rx k) d h))) k) ∨
        (tailEot tail = false ∧
          handleOwn s k d tail =
            .next ((s.setRx (setSlot s.rx k (appended (slotAt s.rx k) d h))).setResult (.received none)))) := by
  by_cases h1 : tailTog tail ≠ expectedToggle s.params (slotAt s.rx k).len ∨ tailSot tail = true
  · left; exact ⟨h1, by unfold handleOwn; rw [if_pos h1]; rfl⟩
  · right
    have h1' := h1
    rw [not_or, not_not, Bool.not_eq_true] at h1'
    by_cases h2 : (slotAt s.rx k).len.val + (d.length - 1) ≤ 256
    · right
      refine ⟨h1'.1, h1'.2, h2, ?_⟩
      unfold handleOwn
      rw [if_neg h1, dif_pos h2]
      by_cases h3 : tailEot tail = true
      · left; exact ⟨h3, by simp only [if_pos h3]⟩
      · right; exact ⟨by simpa using h3, by simp only [if_neg h3]; rfl⟩
    · left
      refine ⟨h1'.1, h1'.2, by omega, ?_⟩
      unfold handleOwn
      rw [if_neg h1, dif_neg h2]; rfl

/-- `HANDLE(k)` (R261): the slot is empty, is the frame's own, or is cleared first. -/
theorem handle_cases (s : State) (k : Fin 8) (id : BitVec 29) (d : Bytes) (tail : Byte) (ts : BitVec 64)
    (h : d.length ≤ 8) :
    ((slotAt s.rx k).occ = false ∧
      handle s k id d tail ts h =
        .next ((s.setRx (handleEmpty s.rx k id d tail ts h)).setResult (.received none))) ∨
    ((slotAt s.rx k).occ = true ∧ (slotAt s.rx k).id = id ∧ handle s k id d tail ts h = handleOwn s k d tail) ∨
    ((slotAt s.rx k).occ = true ∧ (slotAt s.rx k).id ≠ id ∧
      handle s k id d tail ts h =
        .next ((s.setRx (handleEmpty (clearSlot s.rx k) k id d tail ts h)).setResult (.received none))) := by
  unfold handle
  by_cases h1 : (slotAt s.rx k).occ = true
  · right
    rw [if_pos h1]
    by_cases h2 : (slotAt s.rx k).id = id
    · left; exact ⟨h1, h2, by rw [if_pos h2]⟩
    · right; exact ⟨h1, h2, by rw [if_neg h2]; rfl⟩
  · left; exact ⟨by simpa using h1, by rw [if_neg h1]; rfl⟩

/-- The single-frame case (R266): no slot changes. -/
theorem receiveSingle_eq (s : State) (id : BitVec 29) (d : Bytes) (tail : Byte) :
    receiveSingle s id d tail = .next ((s.setRx s.rx).setResult (.received
      (if tailTog tail then none
       else (decodeMessage s.params (messageTypeOfId id) (frameBody d)).map fun m =>
         { id := id, crc := crc16 (frameBody d), msg := m }))) := by
  unfold receiveSingle
  by_cases h : tailTog tail = true
  · simp [h, State.deliverRx]
  · simp [h, State.deliverRx]

/-- The whole of `RX_FRAME` (R261): refused, filtered or empty, single, or handled at its slot. -/
theorem receiveFrame_cases (idIn : BitVec 32) (d : Bytes) (ts : BitVec 64) (s : State) :
    (8 < d.length ∧ receiveFrame idIn d ts s = .refused .frameTooLong) ∨
    (d.length ≤ 8 ∧ (messageTypeOfId (idIn.setWidth 29) = Config.mtLog ∨ d = []) ∧
      receiveFrame idIn d ts s = .next ((s.setRx s.rx).setResult (.received none))) ∨
    (messageTypeOfId (idIn.setWidth 29) ≠ Config.mtLog ∧
      ∃ h : d.length ≤ 8, ∃ tail, d.getLast? = some tail ∧
        ((tailSot tail = true ∧ tailEot tail = true ∧
          receiveFrame idIn d ts s = receiveSingle s (idIn.setWidth 29) d tail) ∨
         ((tailSot tail && tailEot tail) = false ∧
          receiveFrame idIn d ts s =
            handle s (lookup s.rx (idIn.setWidth 29)) (idIn.setWidth 29) d tail ts h))) := by
  by_cases h1 : d.length ≤ 8
  · right
    by_cases h2 : messageTypeOfId (idIn.setWidth 29) = Config.mtLog
    · left
      refine ⟨h1, .inl h2, ?_⟩
      unfold receiveFrame
      rw [dif_pos h1, if_pos h2]; rfl
    · cases h3 : d.getLast? with
      | none =>
        left
        refine ⟨h1, .inr (List.getLast?_eq_none_iff.mp h3), ?_⟩
        unfold receiveFrame
        rw [dif_pos h1, if_neg h2]; simp only [h3]; rfl
      | some tail =>
        right
        refine ⟨h2, h1, tail, rfl, ?_⟩
        by_cases h4 : (tailSot tail && tailEot tail) = true
        · left
          have h5 := h4
          rw [Bool.and_eq_true] at h5
          refine ⟨h5.1, h5.2, ?_⟩
          unfold receiveFrame
          rw [dif_pos h1, if_neg h2]; simp only [h3, if_pos h4]
        · right
          refine ⟨by simpa using h4, ?_⟩
          unfold receiveFrame
          rw [dif_pos h1, if_neg h2]; simp only [h3, if_neg h4]
  · left
    refine ⟨by omega, ?_⟩
    unfold receiveFrame
    rw [dif_neg h1]

/-- No operation of the RX unit writes anything but the slots and the result. -/
theorem receiveFrame_next {idIn : BitVec 32} {d : Bytes} {ts : BitVec 64} {s t : State}
    (h : receiveFrame idIn d ts s = .next t) : ∃ rx m, t = (s.setRx rx).setResult (.received m) := by
  rcases receiveFrame_cases idIn d ts s with ⟨_, h1⟩ | ⟨_, _, h1⟩ | ⟨_, h8, tail, _, ⟨_, _, h1⟩ | ⟨_, h1⟩⟩
  · rw [h1] at h; cases h
  · rw [h1] at h; cases h; exact ⟨_, _, rfl⟩
  · rw [h1, receiveSingle_eq] at h; cases h; exact ⟨_, _, rfl⟩
  · rw [h1] at h
    rcases handle_cases s (lookup s.rx (idIn.setWidth 29)) (idIn.setWidth 29) d tail ts h8 with
      ⟨_, h2⟩ | ⟨_, _, h2⟩ | ⟨_, _, h2⟩
    · rw [h2] at h; cases h; exact ⟨_, _, rfl⟩
    · rw [h2] at h
      rcases handleOwn_cases s (lookup s.rx (idIn.setWidth 29)) d tail with
        ⟨_, h3⟩ | ⟨_, _, _, h3⟩ | ⟨_, _, _, ⟨_, h3⟩ | ⟨_, h3⟩⟩
      · rw [h3] at h; cases h; exact ⟨_, _, rfl⟩
      · rw [h3] at h; cases h; exact ⟨_, _, rfl⟩
      · rw [h3] at h
        rw [complete_eq] at h; cases h; exact ⟨_, _, rfl⟩
      · rw [h3] at h; cases h; exact ⟨_, _, rfl⟩
    · rw [h2] at h; cases h; exact ⟨_, _, rfl⟩

end Sys2Proof.Machine
end

