-- ==== Sys2Proof/Laws/PerInstr.lean ====
section
/-! SUPPORT. The statements made once per instruction. `RowMatch`: the encoder's word of an instruction has the format,
the fixed bits and their values of the instruction's row of spec/opcode_table.json. -/

namespace Sys2Proof.Laws

/-- A row of spec/opcode_table.json: its format, its mask and the value of the masked bits. -/
inductive Row where
  | cmd (mask value : BitVec 14)
  | tail (mask value : BitVec 8)
  | ident (mask value : BitVec 32)
deriving DecidableEq, Repr

/-- Whether a word has the fixed bits of a row. -/
def Row.fits : Row → SelWord → Prop
  | .cmd mask value, .cmd w => w &&& mask = value
  | .tail mask value, .tail b => b &&& mask = value
  | .ident mask value, .ident id => id &&& mask = value
  | _, _ => False

/-- The row of an instruction, `mask` and `match` as the table has them. -/
def rowOf : Instr → Row
  | .putU16 _ _ _ => .cmd 0x3F00 0x0100
  | .putU24 _ _ _ => .cmd 0x3F00 0x0200
  | .putU32 _ _ _ => .cmd 0x3F00 0x0300
  | .putU56 _ _ _ => .cmd 0x3F00 0x0400
  | .putU64 _ _ _ => .cmd 0x3F00 0x0500
  | .getU16 _ _ => .cmd 0x3F00 0x0600
  | .getU24 _ _ => .cmd 0x3F00 0x0700
  | .getU32 _ _ => .cmd 0x3F00 0x0800
  | .getU56 _ _ => .cmd 0x3F00 0x0900
  | .getU64 _ _ => .cmd 0x3F00 0x0A00
  | .putBits _ _ _ _ => .cmd 0x3F00 0x0B00
  | .getBits _ _ _ => .cmd 0x3F00 0x0C00
  | .makeId _ _ _ _ => .cmd 0x3F00 0x1000
  | .splitId _ => .cmd 0x3F00 0x1100
  | .wireId _ _ _ => .cmd 0x3F00 0x1200
  | .crc16 _ => .cmd 0x3F00 0x1800
  | .sizeOf _ => .cmd 0x3F00 0x1900
  | .decode _ _ => .cmd 0x3F00 0x1A00
  | .txLoad _ _ _ _ => .cmd 0x3F00 0x2000
  | .txHasNext => .cmd 0x3F00 0x2100
  | .txNext => .cmd 0x3F00 0x2200
  | .rxReset => .cmd 0x3F00 0x2800
  | .rxFrame _ _ _ => .cmd 0x3F00 0x2900
  | .packReset _ => .cmd 0x3FFF 0x3000
  | .unpackReset _ => .cmd 0x3FFF 0x3100
  | .packUnixTime _ => .cmd 0x3FFF 0x3007
  | .unpackUnixTime _ => .cmd 0x3FFF 0x3107
  | .packPreUnixTime => .cmd 0x3FFF 0x3008
  | .unpackPreUnixTime _ => .cmd 0x3FFF 0x3108
  | .packDataTransfer _ => .cmd 0x3FFF 0x3010
  | .unpackDataTransfer _ => .cmd 0x3FFF 0x3110
  | .packNodeStatus _ => .cmd 0x3FFF 0x3020
  | .unpackNodeStatus _ => .cmd 0x3FFF 0x3120
  | .packAmpStatus _ => .cmd 0x3FFF 0x3021
  | .unpackAmpStatus _ => .cmd 0x3FFF 0x3121
  | .packPayloadEpsStatus _ => .cmd 0x3FFF 0x3022
  | .unpackPayloadEpsStatus _ => .cmd 0x3FFF 0x3122
  | .packVlStatus _ => .cmd 0x3FFF 0x3024
  | .unpackVlStatus _ => .cmd 0x3FFF 0x3124
  | .packAmpControl _ => .cmd 0x3FFF 0x3040
  | .unpackAmpControl _ => .cmd 0x3FFF 0x3140
  | .packPayloadEpsOutputOverwrite _ => .cmd 0x3FFF 0x3041
  | .unpackPayloadEpsOutputOverwrite _ => .cmd 0x3FFF 0x3141
  | .packAck _ => .cmd 0x3FFF 0x3042
  | .unpackAck _ => .cmd 0x3FFF 0x3142
  | .packAmpOverwrite _ => .cmd 0x3FFF 0x3043
  | .unpackAmpOverwrite _ => .cmd 0x3FFF 0x3143
  | .packAmpResetOutput _ => .cmd 0x3FFF 0x3044
  | .unpackAmpResetOutput _ => .cmd 0x3FFF 0x3144
  | .packAirBrakesControl _ => .cmd 0x3FFF 0x3045
  | .unpackAirBrakesControl _ => .cmd 0x3FFF 0x3145
  | .packBaroMeasurement _ => .cmd 0x3FFF 0x3080
  | .unpackBaroMeasurement _ => .cmd 0x3FFF 0x3180
  | .packImuMeasurement _ => .cmd 0x3FFF 0x3081
  | .unpackImuMeasurement _ => .cmd 0x3FFF 0x3181
  | .packBrightnessMeasurement _ => .cmd 0x3FFF 0x3082
  | .unpackBrightnessMeasurement _ => .cmd 0x3FFF 0x3182
  | .packRocketState _ => .cmd 0x3FFF 0x3083
  | .unpackRocketState _ => .cmd 0x3FFF 0x3183
  | .packMagMeasurement _ => .cmd 0x3FFF 0x3084
  | .unpackMagMeasurement _ => .cmd 0x3FFF 0x3184
  | .packOzysMeasurement _ => .cmd 0x3FFF 0x3085
  | .unpackOzysMeasurement _ => .cmd 0x3FFF 0x3185
  | .packIcarusStatus _ => .cmd 0x3FFF 0x30A0
  | .unpackIcarusStatus _ => .cmd 0x3FFF 0x31A0
  | .packAmpOutStatus _ => .cmd 0x3FFF 0x3200
  | .unpackAmpOutStatus _ => .cmd 0x3FFF 0x3300
  | .packEpsOutStatus _ => .cmd 0x3FFF 0x3201
  | .unpackEpsOutStatus _ => .cmd 0x3FFF 0x3301
  | .frameSingle _ _ _ _ => .tail 0xE0 0xC0
  | .frameSingleBadtog _ _ _ _ => .tail 0xE0 0xE0
  | .frameFirst _ _ _ _ => .tail 0xE0 0x80
  | .frameFirstBadtog _ _ _ _ => .tail 0xE0 0xA0
  | .frameMiddle _ _ _ _ _ => .tail 0xC0 0x00
  | .frameLast _ _ _ _ _ => .tail 0xC0 0x40
  | .idReset _ _ _ => .ident 0x03FC0000 0x00000000
  | .idUnixTime _ _ _ => .ident 0x03FC0000 0x001C0000
  | .idPreUnixTime _ _ _ => .ident 0x03FC0000 0x00200000
  | .idDataTransfer _ _ _ => .ident 0x03FC0000 0x00400000
  | .idNodeStatus _ _ _ => .ident 0x03FC0000 0x00800000
  | .idAmpStatus _ _ _ => .ident 0x03FC0000 0x00840000
  | .idPayloadEpsStatus _ _ _ => .ident 0x03FC0000 0x00880000
  | .idVlStatus _ _ _ => .ident 0x03FC0000 0x00900000
  | .idAmpControl _ _ _ => .ident 0x03FC0000 0x01000000
  | .idPayloadEpsOutputOverwrite _ _ _ => .ident 0x03FC0000 0x01040000
  | .idAck _ _ _ => .ident 0x03FC0000 0x01080000
  | .idAmpOverwrite _ _ _ => .ident 0x03FC0000 0x010C0000
  | .idAmpResetOutput _ _ _ => .ident 0x03FC0000 0x01100000
  | .idAirBrakesControl _ _ _ => .ident 0x03FC0000 0x01140000
  | .idBaroMeasurement _ _ _ => .ident 0x03FC0000 0x02000000
  | .idImuMeasurement _ _ _ => .ident 0x03FC0000 0x02040000
  | .idBrightnessMeasurement _ _ _ => .ident 0x03FC0000 0x02080000
  | .idRocketState _ _ _ => .ident 0x03FC0000 0x020C0000
  | .idMagMeasurement _ _ _ => .ident 0x03FC0000 0x02100000
  | .idOzysMeasurement _ _ _ => .ident 0x03FC0000 0x02140000
  | .idIcarusStatus _ _ _ => .ident 0x03FC0000 0x02800000
  | .idLogChannel _ _ _ => .ident 0x03FC0000 0x03FC0000

theorem cmdWord_masked (c : BitVec 6) (sel : BitVec 8) : cmdWord c sel &&& 0x3F00#14 = cmdWord c 0 := by
  apply BitVec.eq_of_getLsbD_eq
  intro i hi
  simp only [cmdWord, BitVec.getLsbD_and, BitVec.getLsbD_append]
  interval_cases i <;> simp

theorem tailByte_masked (a b c : Bool) (r : BitVec 5) :
    Machine.tailByte a b c r &&& 0xE0#8 = Machine.tailByte a b c 0 := by
  revert a b c r; decide

theorem tailByte_masked_flags (a b c : Bool) (r : BitVec 5) :
    Machine.tailByte a b c r &&& 0xC0#8 = Machine.tailByte a b false 0 := by
  revert a b c r; decide

theorem identWord_masked (mt : BitVec 8) (x : IdentFields) :
    identWord mt x &&& 0x03FC0000#32 = identWord mt ⟨0, 0, 0, 0⟩ := by
  apply BitVec.eq_of_getLsbD_eq
  intro i hi
  simp only [identWord, BitVec.getLsbD_and, BitVec.getLsbD_append]
  interval_cases i <;> simp

end Sys2Proof.Laws

namespace Sys2Proof.Laws.RowMatch

/-- The word the encoder writes for an instruction is one of the words of the instruction's row. -/
def Statement (i : Instr) : Prop := (rowOf i).fits (encode i).word

theorem putU16 (B : Bytes) (i : Nat) (v : BitVec 16) : Statement (.putU16 B i v) :=
  cmdWord_masked 0x01 _

theorem putU24 (B : Bytes) (i : Nat) (v : BitVec 24) : Statement (.putU24 B i v) :=
  cmdWord_masked 0x02 _

theorem putU32 (B : Bytes) (i : Nat) (v : BitVec 32) : Statement (.putU32 B i v) :=
  cmdWord_masked 0x03 _

theorem putU56 (B : Bytes) (i : Nat) (v : BitVec 56) : Statement (.putU56 B i v) :=
  cmdWord_masked 0x04 _

theorem putU64 (B : Bytes) (i : Nat) (v : BitVec 64) : Statement (.putU64 B i v) :=
  cmdWord_masked 0x05 _

theorem getU16 (B : Bytes) (i : Nat) : Statement (.getU16 B i) :=
  cmdWord_masked 0x06 _

theorem getU24 (B : Bytes) (i : Nat) : Statement (.getU24 B i) :=
  cmdWord_masked 0x07 _

theorem getU32 (B : Bytes) (i : Nat) : Statement (.getU32 B i) :=
  cmdWord_masked 0x08 _

theorem getU56 (B : Bytes) (i : Nat) : Statement (.getU56 B i) :=
  cmdWord_masked 0x09 _

theorem getU64 (B : Bytes) (i : Nat) : Statement (.getU64 B i) :=
  cmdWord_masked 0x0a _

theorem putBits (B : Bytes) (o w v : Nat) : Statement (.putBits B o w v) :=
  cmdWord_masked 0x0b _

theorem getBits (B : Bytes) (o w : Nat) : Statement (.getBits B o w) :=
  cmdWord_masked 0x0c _

theorem makeId (priority messageType nodeType nodeId : BitVec 32) : Statement (.makeId priority messageType nodeType nodeId) :=
  cmdWord_masked 0x10 _

theorem splitId (id : BitVec 32) : Statement (.splitId id) :=
  cmdWord_masked 0x11 _

theorem wireId (sel : BitVec 8) (nodeType nodeId : BitVec 32) : Statement (.wireId sel nodeType nodeId) :=
  cmdWord_masked 0x12 _

theorem crc16 (s : Bytes) : Statement (.crc16 s) :=
  cmdWord_masked 0x18 _

theorem sizeOf (sel : BitVec 8) : Statement (.sizeOf sel) :=
  cmdWord_masked 0x19 _

theorem decode (sel : BitVec 8) (B : Bytes) : Statement (.decode sel B) :=
  cmdWord_masked 0x1a _

theorem txLoad (sel : BitVec 8) (body : Bytes) (nodeType : BitVec 6) (nodeId : BitVec 12) : Statement (.txLoad sel body nodeType nodeId) :=
  cmdWord_masked 0x20 _

theorem txHasNext : Statement .txHasNext :=
  cmdWord_masked 0x21 _

theorem txNext : Statement .txNext :=
  cmdWord_masked 0x22 _

theorem rxReset : Statement .rxReset :=
  cmdWord_masked 0x28 _

theorem rxFrame (idIn : BitVec 32) (d : Bytes) (ts : BitVec 64) : Statement (.rxFrame idIn d ts) :=
  cmdWord_masked 0x29 _

theorem packReset (v : ResetFields) : Statement (.packReset v) :=
  rfl

theorem unpackReset (B : Bytes) : Statement (.unpackReset B) :=
  rfl

theorem packUnixTime (body : Bytes) : Statement (.packUnixTime body) :=
  rfl

theorem unpackUnixTime (B : Bytes) : Statement (.unpackUnixTime B) :=
  rfl

theorem packPreUnixTime : Statement .packPreUnixTime :=
  rfl

theorem unpackPreUnixTime (B : Bytes) : Statement (.unpackPreUnixTime B) :=
  rfl

theorem packDataTransfer (v : DataTransferFields) : Statement (.packDataTransfer v) :=
  rfl

theorem unpackDataTransfer (B : Bytes) : Statement (.unpackDataTransfer B) :=
  rfl

theorem packNodeStatus (v : NodeStatusFields) : Statement (.packNodeStatus v) :=
  rfl

theorem unpackNodeStatus (B : Bytes) : Statement (.unpackNodeStatus B) :=
  rfl

theorem packAmpStatus (body : Bytes) : Statement (.packAmpStatus body) :=
  rfl

theorem unpackAmpStatus (B : Bytes) : Statement (.unpackAmpStatus B) :=
  rfl

theorem packPayloadEpsStatus (body : Bytes) : Statement (.packPayloadEpsStatus body) :=
  rfl

theorem unpackPayloadEpsStatus (B : Bytes) : Statement (.unpackPayloadEpsStatus B) :=
  rfl

theorem packVlStatus (v : VlStatusFields) : Statement (.packVlStatus v) :=
  rfl

theorem unpackVlStatus (B : Bytes) : Statement (.unpackVlStatus B) :=
  rfl

theorem packAmpControl (v : AmpControlFields) : Statement (.packAmpControl v) :=
  rfl

theorem unpackAmpControl (B : Bytes) : Statement (.unpackAmpControl B) :=
  rfl

theorem packPayloadEpsOutputOverwrite (v : PayloadEpsOutputOverwriteFields) : Statement (.packPayloadEpsOutputOverwrite v) :=
  rfl

theorem unpackPayloadEpsOutputOverwrite (B : Bytes) : Statement (.unpackPayloadEpsOutputOverwrite B) :=
  rfl

theorem packAck (v : AckFields) : Statement (.packAck v) :=
  rfl

theorem unpackAck (B : Bytes) : Statement (.unpackAck B) :=
  rfl

theorem packAmpOverwrite (v : AmpOverwriteFields) : Statement (.packAmpOverwrite v) :=
  rfl

theorem unpackAmpOverwrite (B : Bytes) : Statement (.unpackAmpOverwrite B) :=
  rfl

theorem packAmpResetOutput (body : Bytes) : Statement (.packAmpResetOutput body) :=
  rfl

theorem unpackAmpResetOutput (B : Bytes) : Statement (.unpackAmpResetOutput B) :=
  rfl

theorem packAirBrakesControl (v : AirBrakesControlFields) : Statement (.packAirBrakesControl v) :=
  rfl

theorem unpackAirBrakesControl (B : Bytes) : Statement (.unpackAirBrakesControl B) :=
  rfl

theorem packBaroMeasurement (body : Bytes) : Statement (.packBaroMeasurement body) :=
  rfl

theorem unpackBaroMeasurement (B : Bytes) : Statement (.unpackBaroMeasurement B) :=
  rfl

theorem packImuMeasurement (body : Bytes) : Statement (.packImuMeasurement body) :=
  rfl

theorem unpackImuMeasurement (B : Bytes) : Statement (.unpackImuMeasurement B) :=
  rfl

theorem packBrightnessMeasurement (body : Bytes) : Statement (.packBrightnessMeasurement body) :=
  rfl

theorem unpackBrightnessMeasurement (B : Bytes) : Statement (.unpackBrightnessMeasurement B) :=
  rfl

theorem packRocketState (v : RocketStateFields) : Statement (.packRocketState v) :=
  rfl

theorem unpackRocketState (B : Bytes) : Statement (.unpackRocketState B) :=
  rfl

theorem packMagMeasurement (body : Bytes) : Statement (.packMagMeasurement body) :=
  rfl

theorem unpackMagMeasurement (B : Bytes) : Statement (.unpackMagMeasurement B) :=
  rfl

theorem packOzysMeasurement (body : Bytes) : Statement (.packOzysMeasurement body) :=
  rfl

theorem unpackOzysMeasurement (B : Bytes) : Statement (.unpackOzysMeasurement B) :=
  rfl

theorem packIcarusStatus (body : Bytes) : Statement (.packIcarusStatus body) :=
  rfl

theorem unpackIcarusStatus (B : Bytes) : Statement (.unpackIcarusStatus B) :=
  rfl

theorem packAmpOutStatus (v : AmpOutStatusFields) : Statement (.packAmpOutStatus v) :=
  rfl

theorem unpackAmpOutStatus (B : Bytes) : Statement (.unpackAmpOutStatus B) :=
  rfl

theorem packEpsOutStatus (v : EpsOutStatusFields) : Statement (.packEpsOutStatus v) :=
  rfl

theorem unpackEpsOutStatus (B : Bytes) : Statement (.unpackEpsOutStatus B) :=
  rfl

theorem frameSingle (reserved : BitVec 5) (idIn : BitVec 32) (body : Bytes) (ts : BitVec 64) : Statement (.frameSingle reserved idIn body ts) :=
  tailByte_masked true true false _

theorem frameSingleBadtog (reserved : BitVec 5) (idIn : BitVec 32) (body : Bytes) (ts : BitVec 64) : Statement (.frameSingleBadtog reserved idIn body ts) :=
  tailByte_masked true true true _

theorem frameFirst (reserved : BitVec 5) (idIn : BitVec 32) (body : Bytes) (ts : BitVec 64) : Statement (.frameFirst reserved idIn body ts) :=
  tailByte_masked true false false _

theorem frameFirstBadtog (reserved : BitVec 5) (idIn : BitVec 32) (body : Bytes) (ts : BitVec 64) : Statement (.frameFirstBadtog reserved idIn body ts) :=
  tailByte_masked true false true _

theorem frameMiddle (tog : Bool) (reserved : BitVec 5) (idIn : BitVec 32) (body : Bytes) (ts : BitVec 64) : Statement (.frameMiddle tog reserved idIn body ts) :=
  tailByte_masked_flags false false _ _

theorem frameLast (tog : Bool) (reserved : BitVec 5) (idIn : BitVec 32) (body : Bytes) (ts : BitVec 64) : Statement (.frameLast tog reserved idIn body ts) :=
  tailByte_masked_flags false true _ _

theorem idReset (x : IdentFields) (d : Bytes) (ts : BitVec 64) : Statement (.idReset x d ts) :=
  identWord_masked 0 _

theorem idUnixTime (x : IdentFields) (d : Bytes) (ts : BitVec 64) : Statement (.idUnixTime x d ts) :=
  identWord_masked 7 _

theorem idPreUnixTime (x : IdentFields) (d : Bytes) (ts : BitVec 64) : Statement (.idPreUnixTime x d ts) :=
  identWord_masked 8 _

theorem idDataTransfer (x : IdentFields) (d : Bytes) (ts : BitVec 64) : Statement (.idDataTransfer x d ts) :=
  identWord_masked 16 _

theorem idNodeStatus (x : IdentFields) (d : Bytes) (ts : BitVec 64) : Statement (.idNodeStatus x d ts) :=
  identWord_masked 32 _

theorem idAmpStatus (x : IdentFields) (d : Bytes) (ts : BitVec 64) : Statement (.idAmpStatus x d ts) :=
  identWord_masked 33 _

theorem idPayloadEpsStatus (x : IdentFields) (d : Bytes) (ts : BitVec 64) : Statement (.idPayloadEpsStatus x d ts) :=
  identWord_masked 34 _

theorem idVlStatus (x : IdentFields) (d : Bytes) (ts : BitVec 64) : Statement (.idVlStatus x d ts) :=
  identWord_masked 36 _

theorem idAmpControl (x : IdentFields) (d : Bytes) (ts : BitVec 64) : Statement (.idAmpControl x d ts) :=
  identWord_masked 64 _

theorem idPayloadEpsOutputOverwrite (x : IdentFields) (d : Bytes) (ts : BitVec 64) : Statement (.idPayloadEpsOutputOverwrite x d ts) :=
  identWord_masked 65 _

theorem idAck (x : IdentFields) (d : Bytes) (ts : BitVec 64) : Statement (.idAck x d ts) :=
  identWord_masked 66 _

theorem idAmpOverwrite (x : IdentFields) (d : Bytes) (ts : BitVec 64) : Statement (.idAmpOverwrite x d ts) :=
  identWord_masked 67 _

theorem idAmpResetOutput (x : IdentFields) (d : Bytes) (ts : BitVec 64) : Statement (.idAmpResetOutput x d ts) :=
  identWord_masked 68 _

theorem idAirBrakesControl (x : IdentFields) (d : Bytes) (ts : BitVec 64) : Statement (.idAirBrakesControl x d ts) :=
  identWord_masked 69 _

theorem idBaroMeasurement (x : IdentFields) (d : Bytes) (ts : BitVec 64) : Statement (.idBaroMeasurement x d ts) :=
  identWord_masked 128 _

theorem idImuMeasurement (x : IdentFields) (d : Bytes) (ts : BitVec 64) : Statement (.idImuMeasurement x d ts) :=
  identWord_masked 129 _

theorem idBrightnessMeasurement (x : IdentFields) (d : Bytes) (ts : BitVec 64) : Statement (.idBrightnessMeasurement x d ts) :=
  identWord_masked 130 _

theorem idRocketState (x : IdentFields) (d : Bytes) (ts : BitVec 64) : Statement (.idRocketState x d ts) :=
  identWord_masked 131 _

theorem idMagMeasurement (x : IdentFields) (d : Bytes) (ts : BitVec 64) : Statement (.idMagMeasurement x d ts) :=
  identWord_masked 132 _

theorem idOzysMeasurement (x : IdentFields) (d : Bytes) (ts : BitVec 64) : Statement (.idOzysMeasurement x d ts) :=
  identWord_masked 133 _

theorem idIcarusStatus (x : IdentFields) (d : Bytes) (ts : BitVec 64) : Statement (.idIcarusStatus x d ts) :=
  identWord_masked 160 _

theorem idLogChannel (x : IdentFields) (d : Bytes) (ts : BitVec 64) : Statement (.idLogChannel x d ts) :=
  identWord_masked 255 _

end Sys2Proof.Laws.RowMatch
end

