-- ==== Sys2Proof/Tests/Slice0.lean ====
section
/-! SUPPORT. Tests: ill-formed terms, one written-out word per constructor, single steps against the values of the spec
(95_test_vectors.md and the examples of the rules), and for every obligation with hypotheses a state and operands that meet
them, clause by clause. -/

namespace Sys2Proof.Tests

-- One theorem at a time: the kernel evaluations below, run side by side, take one thread stack each.
set_option Elab.async false

open Sys2Proof.Machine Sys2Proof.Claims

/-! ### Helpers -/

/-- The result of a completed operation. -/
def result (o : Outcome) : Option Result :=
  match o with
  | .next s => some s.result
  | _ => none

/-- The reason of a refused one. -/
def refusal (o : Outcome) : Option Refusal :=
  match o with
  | .refused r => some r
  | _ => none

/-- The state after a completed operation (reset after any other). -/
def after (o : Outcome) : State :=
  match o with
  | .next s => s
  | _ => State.reset

/-- The result of one operation on the machine right after reset. -/
def run (i : Instr) : Option Result := result (exec i State.reset)

/-- A command word written out, with its operands. -/
def cmd (w : BitVec 14) (bytes : Bytes) (nums : List Nat) : Request := ⟨.cmd w, ⟨bytes, nums⟩⟩

/-- Whether a request decodes to an operation. -/
def reads (r : Request) (i : Instr) : Bool :=
  match decode r with
  | .ok j => decide (j = i)
  | .error _ => false

/-- Whether a request is rejected for a reason. -/
def rejects (r : Request) (e : DecodeError) : Bool :=
  match decode r with
  | .ok _ => false
  | .error f => decide (f = e)

/-! ### WellFormed and the decoder's rejections -/

/-- `PUT_BITS` of a value wider than its field is ill formed (40_bit_io.md R131), and its request is rejected. -/
theorem test_illformed_putBits :
    (Instr.putBits [0] 0 3 8).wellFormed = false ∧ (Instr.putBits [0] 0 3 7).wellFormed = true ∧
    rejects (encode (.putBits [0] 0 3 8)) .operandBundle = true := by decide

/-- `CRC16` of 257 bytes is ill formed (43_crc16.md R232), and its request is rejected; 256 bytes are well formed. -/
theorem test_illformed_crc16 :
    (Instr.crc16 (List.replicate 257 0)).wellFormed = false ∧ (Instr.crc16 (List.replicate 256 0)).wellFormed = true ∧
    rejects (encode (.crc16 (List.replicate 257 0))) .operandBundle = true := by decide +kernel

/-- `DECODE` of 257 bytes is ill formed (42_message_codecs.md R155), and its request is rejected; 256 bytes are well formed. -/
theorem test_illformed_decode :
    (Instr.decode 32 (List.replicate 257 0)).wellFormed = false ∧
    (Instr.decode 32 (List.replicate 256 0)).wellFormed = true ∧
    rejects (encode (.decode 32 (List.replicate 257 0))) .operandBundle = true := by decide +kernel

/-- Words that are no operation (30_encoding.md R99), and a bundle with a number too many or too wide. -/
theorem test_rejected_words :
    rejects (cmd 0b00000000000000#14 [] []) .unassignedCmd = true ∧
    rejects (cmd 0b11111100000000#14 [] []) .unassignedCmd = true ∧
    rejects (cmd 0b11000000000001#14 [] []) .noSuchClass = true ∧
    rejects (cmd 0b11000111111111#14 [] []) .noSuchClass = true ∧
    rejects (cmd 0b11001000000010#14 [] []) .noSuchClass = true ∧
    rejects ⟨.ident 0b00000000000001000000000000000000#32, ⟨[], [0]⟩⟩ .noIdentRow = true ∧
    rejects (cmd 0b00000100000000#14 [0, 0] [0, 65536]) .operandBundle = true ∧
    rejects (cmd 0b00000100000000#14 [0, 0] [0, 1, 2]) .operandBundle = true := by decide

/-! ### One word per constructor, written out from 30_encoding.md R80, R89, R91, R92, R99 -/

theorem test_words_bit_io :
    reads (cmd 0b00000100000000#14 [1, 2] [0, 7400]) (.putU16 [1, 2] 0 7400) = true ∧
    reads (cmd 0b00001000000000#14 [1] [3, 10]) (.putU24 [1] 3 10) = true ∧
    reads (cmd 0b00001100000000#14 [1] [3, 10]) (.putU32 [1] 3 10) = true ∧
    reads (cmd 0b00010000000000#14 [1] [3, 10]) (.putU56 [1] 3 10) = true ∧
    reads (cmd 0b00010111111111#14 [1] [3, 10]) (.putU64 [1] 3 10) = true ∧
    reads (cmd 0b00011000000000#14 [1] [3]) (.getU16 [1] 3) = true ∧
    reads (cmd 0b00011100000000#14 [1] [3]) (.getU24 [1] 3) = true ∧
    reads (cmd 0b00100000000000#14 [1] [3]) (.getU32 [1] 3) = true ∧
    reads (cmd 0b00100100000000#14 [1] [3]) (.getU56 [1] 3) = true ∧
    reads (cmd 0b00101000000000#14 [1] [3]) (.getU64 [1] 3) = true ∧
    reads (cmd 0b00101100000000#14 [1] [3, 5, 31]) (.putBits [1] 3 5 31) = true ∧
    reads (cmd 0b00110000000000#14 [1] [3, 5]) (.getBits [1] 3 5) = true := by decide

theorem test_words_pure :
    reads (cmd 0b01000000000000#14 [] [1, 2, 3, 4]) (.makeId 1 2 3 4) = true ∧
    reads (cmd 0b01000100000000#14 [] [9]) (.splitId 9) = true ∧
    reads (cmd 0b01001000100000#14 [] [10, 20]) (.wireId 32 10 20) = true ∧
    reads (cmd 0b01100000000000#14 [5, 6] []) (.crc16 [5, 6]) = true ∧
    reads (cmd 0b01100100010000#14 [] []) (.sizeOf 16) = true ∧
    reads (cmd 0b01101010100000#14 [5] []) (.decode 160 [5]) = true := by decide

theorem test_words_units :
    reads (cmd 0b10000000100000#14 [7] [10, 20]) (.txLoad 32 [7] 10 20) = true ∧
    reads (cmd 0b10000100000000#14 [] []) .txHasNext = true ∧
    reads (cmd 0b10001000000000#14 [] []) .txNext = true ∧
    reads (cmd 0b10100000000000#14 [] []) .rxReset = true ∧
    reads (cmd 0b10100100000000#14 [1, 192] [4, 1000]) (.rxFrame 4 [1, 192] 1000) = true := by decide

theorem test_words_pack_fields :
    reads (cmd 0b11000000000000#14 [] [0xABC, 1, 0]) (.packReset ⟨0xABC, true, false⟩) = true ∧
    reads (cmd 0b11000000001000#14 [] []) .packPreUnixTime = true ∧
    reads (cmd 0b11000000010000#14 (List.replicate 32 9) [1, 2, 1, 0, 3, 0x5A3])
      (.packDataTransfer ⟨Vector.replicate 32 9, 1, 2, true, false, 3, 0x5A3⟩) = true ∧
    reads (cmd 0b11000000100000#14 [] [10, 0, 2, 1]) (.packNodeStatus ⟨10, 0, 2, 1⟩) = true ∧
    reads (cmd 0b11000000100100#14 [] [3, 7400]) (.packVlStatus ⟨3, 7400⟩) = true ∧
    reads (cmd 0b11000001000000#14 [] [1, 0, 1, 1]) (.packAmpControl ⟨true, false, true, true⟩) = true ∧
    reads (cmd 0b11000001000001#14 [] [1, 2, 3, 0xABC]) (.packPayloadEpsOutputOverwrite ⟨1, 2, 3, 0xABC⟩) = true ∧
    reads (cmd 0b11000001000010#14 [] [0x1234, 0xAB]) (.packAck ⟨0x1234, 0xAB⟩) = true ∧
    reads (cmd 0b11000001000011#14 [] [0, 1, 2, 3]) (.packAmpOverwrite ⟨0, 1, 2, 3⟩) = true ∧
    reads (cmd 0b11000001000101#14 [] [500]) (.packAirBrakesControl ⟨500⟩) = true ∧
    reads (cmd 0b11000010000011#14 [] [1, 2, 3, 4, 1]) (.packRocketState ⟨1, 2, 3, 4, true⟩) = true ∧
    reads (cmd 0b11001000000000#14 [] [1, 2]) (.packAmpOutStatus ⟨true, 2⟩) = true ∧
    reads (cmd 0b11001000000001#14 [] [0x1234, 1, 3]) (.packEpsOutStatus ⟨0x1234, true, 3⟩) = true := by decide +kernel

theorem test_words_pack_opaque :
    reads (cmd 0b11000000000111#14 [5] []) (.packUnixTime [5]) = true ∧
    reads (cmd 0b11000000100001#14 [5] []) (.packAmpStatus [5]) = true ∧
    reads (cmd 0b11000000100010#14 [5] []) (.packPayloadEpsStatus [5]) = true ∧
    reads (cmd 0b11000001000100#14 [5] []) (.packAmpResetOutput [5]) = true ∧
    reads (cmd 0b11000010000000#14 [5] []) (.packBaroMeasurement [5]) = true ∧
    reads (cmd 0b11000010000001#14 [5] []) (.packImuMeasurement [5]) = true ∧
    reads (cmd 0b11000010000010#14 [5] []) (.packBrightnessMeasurement [5]) = true ∧
    reads (cmd 0b11000010000100#14 [5] []) (.packMagMeasurement [5]) = true ∧
    reads (cmd 0b11000010000101#14 [5] []) (.packOzysMeasurement [5]) = true ∧
    reads (cmd 0b11000010100000#14 [5] []) (.packIcarusStatus [5]) = true := by decide

theorem test_words_unpack :
    reads (cmd 0b11000100000000#14 [5] []) (.unpackReset [5]) = true ∧
    reads (cmd 0b11000100000111#14 [5] []) (.unpackUnixTime [5]) = true ∧
    reads (cmd 0b11000100001000#14 [5] []) (.unpackPreUnixTime [5]) = true ∧
    reads (cmd 0b11000100010000#14 [5] []) (.unpackDataTransfer [5]) = true ∧
    reads (cmd 0b11000100100000#14 [5] []) (.unpackNodeStatus [5]) = true ∧
    reads (cmd 0b11000100100001#14 [5] []) (.unpackAmpStatus [5]) = true ∧
    reads (cmd 0b11000100100010#14 [5] []) (.unpackPayloadEpsStatus [5]) = true ∧
    reads (cmd 0b11000100100100#14 [5] []) (.unpackVlStatus [5]) = true ∧
    reads (cmd 0b11000101000000#14 [5] []) (.unpackAmpControl [5]) = true ∧
    reads (cmd 0b11000101000001#14 [5] []) (.unpackPayloadEpsOutputOverwrite [5]) = true ∧
    reads (cmd 0b11000101000010#14 [5] []) (.unpackAck [5]) = true ∧
    reads (cmd 0b11000101000011#14 [5] []) (.unpackAmpOverwrite [5]) = true ∧
    reads (cmd 0b11000101000100#14 [5] []) (.unpackAmpResetOutput [5]) = true ∧
    reads (cmd 0b11000101000101#14 [5] []) (.unpackAirBrakesControl [5]) = true ∧
    reads (cmd 0b11000110000000#14 [5] []) (.unpackBaroMeasurement [5]) = true ∧
    reads (cmd 0b11000110000001#14 [5] []) (.unpackImuMeasurement [5]) = true ∧
    reads (cmd 0b11000110000010#14 [5] []) (.unpackBrightnessMeasurement [5]) = true ∧
    reads (cmd 0b11000110000011#14 [5] []) (.unpackRocketState [5]) = true ∧
    reads (cmd 0b11000110000100#14 [5] []) (.unpackMagMeasurement [5]) = true ∧
    reads (cmd 0b11000110000101#14 [5] []) (.unpackOzysMeasurement [5]) = true ∧
    reads (cmd 0b11000110100000#14 [5] []) (.unpackIcarusStatus [5]) = true ∧
    reads (cmd 0b11001100000000#14 [5] []) (.unpackAmpOutStatus [5]) = true ∧
    reads (cmd 0b11001100000001#14 [5] []) (.unpackEpsOutStatus [5]) = true := by decide

theorem test_words_tails :
    reads ⟨.tail 0b11000101#8, ⟨[1], [4, 9]⟩⟩ (.frameSingle 5 4 [1] 9) = true ∧
    reads ⟨.tail 0b11100000#8, ⟨[1], [4, 9]⟩⟩ (.frameSingleBadtog 0 4 [1] 9) = true ∧
    reads ⟨.tail 0b10000000#8, ⟨[1], [4, 9]⟩⟩ (.frameFirst 0 4 [1] 9) = true ∧
    reads ⟨.tail 0b10111111#8, ⟨[1], [4, 9]⟩⟩ (.frameFirstBadtog 31 4 [1] 9) = true ∧
    reads ⟨.tail 0b00000000#8, ⟨[1], [4, 9]⟩⟩ (.frameMiddle false 0 4 [1] 9) = true ∧
    reads ⟨.tail 0b00100000#8, ⟨[1], [4, 9]⟩⟩ (.frameMiddle true 0 4 [1] 9) = true ∧
    reads ⟨.tail 0b01000000#8, ⟨[1], [4, 9]⟩⟩ (.frameLast false 0 4 [1] 9) = true ∧
    reads ⟨.tail 0b01100000#8, ⟨[1], [4, 9]⟩⟩ (.frameLast true 0 4 [1] 9) = true := by decide

/-- Identifier words with node_type 10 and node_id 20; the first has every other field at its largest. -/
theorem test_words_idents :
    reads ⟨.ident 0b11111100000000111111111111111111#32, ⟨[1], [9]⟩⟩ (.idReset ⟨7, 7, 63, 4095⟩ [1] 9) = true ∧
    reads ⟨.ident 0b00000100000111001010000000010100#32, ⟨[1], [9]⟩⟩ (.idUnixTime ⟨0, 1, 10, 20⟩ [1] 9) = true ∧
    reads ⟨.ident 0b00000100001000001010000000010100#32, ⟨[1], [9]⟩⟩ (.idPreUnixTime ⟨0, 1, 10, 20⟩ [1] 9) = true ∧
    reads ⟨.ident 0b00011000010000001010000000010100#32, ⟨[1], [9]⟩⟩ (.idDataTransfer ⟨0, 6, 10, 20⟩ [1] 9) = true ∧
    reads ⟨.ident 0b00010100100000001010000000010100#32, ⟨[1], [9]⟩⟩ (.idNodeStatus ⟨0, 5, 10, 20⟩ [1] 9) = true ∧
    reads ⟨.ident 0b00010100100001001010000000010100#32, ⟨[1], [9]⟩⟩ (.idAmpStatus ⟨0, 5, 10, 20⟩ [1] 9) = true ∧
    reads ⟨.ident 0b00010100100010001010000000010100#32, ⟨[1], [9]⟩⟩ (.idPayloadEpsStatus ⟨0, 5, 10, 20⟩ [1] 9) = true ∧
    reads ⟨.ident 0b00001000100100001010000000010100#32, ⟨[1], [9]⟩⟩ (.idVlStatus ⟨0, 2, 10, 20⟩ [1] 9) = true ∧
    reads ⟨.ident 0b00001001000000001010000000010100#32, ⟨[1], [9]⟩⟩ (.idAmpControl ⟨0, 2, 10, 20⟩ [1] 9) = true ∧
    reads ⟨.ident 0b00001001000001001010000000010100#32, ⟨[1], [9]⟩⟩
      (.idPayloadEpsOutputOverwrite ⟨0, 2, 10, 20⟩ [1] 9) = true ∧
    reads ⟨.ident 0b00010001000010001010000000010100#32, ⟨[1], [9]⟩⟩ (.idAck ⟨0, 4, 10, 20⟩ [1] 9) = true ∧
    reads ⟨.ident 0b00001001000011001010000000010100#32, ⟨[1], [9]⟩⟩ (.idAmpOverwrite ⟨0, 2, 10, 20⟩ [1] 9) = true ∧
    reads ⟨.ident 0b00001001000100001010000000010100#32, ⟨[1], [9]⟩⟩ (.idAmpResetOutput ⟨0, 2, 10, 20⟩ [1] 9) = true ∧
    reads ⟨.ident 0b00001001000101001010000000010100#32, ⟨[1], [9]⟩⟩ (.idAirBrakesControl ⟨0, 2, 10, 20⟩ [1] 9) = true ∧
    reads ⟨.ident 0b00001110000000001010000000010100#32, ⟨[1], [9]⟩⟩ (.idBaroMeasurement ⟨0, 3, 10, 20⟩ [1] 9) = true ∧
    reads ⟨.ident 0b00001110000001001010000000010100#32, ⟨[1], [9]⟩⟩ (.idImuMeasurement ⟨0, 3, 10, 20⟩ [1] 9) = true ∧
    reads ⟨.ident 0b00010110000010001010000000010100#32, ⟨[1], [9]⟩⟩
      (.idBrightnessMeasurement ⟨0, 5, 10, 20⟩ [1] 9) = true ∧
    reads ⟨.ident 0b00001110000011001010000000010100#32, ⟨[1], [9]⟩⟩ (.idRocketState ⟨0, 3, 10, 20⟩ [1] 9) = true ∧
    reads ⟨.ident 0b00001110000100001010000000010100#32, ⟨[1], [9]⟩⟩ (.idMagMeasurement ⟨0, 3, 10, 20⟩ [1] 9) = true ∧
    reads ⟨.ident 0b00010110000101001010000000010100#32, ⟨[1], [9]⟩⟩ (.idOzysMeasurement ⟨0, 5, 10, 20⟩ [1] 9) = true ∧
    reads ⟨.ident 0b00010110100000001010000000010100#32, ⟨[1], [9]⟩⟩ (.idIcarusStatus ⟨0, 5, 10, 20⟩ [1] 9) = true ∧
    reads ⟨.ident 0b00010111111111001010000000010100#32, ⟨[1], [9]⟩⟩ (.idLogChannel ⟨0, 5, 10, 20⟩ [1] 9) = true := by
  decide

/-- The host's word: a row of the table by its number of bits (log 3). -/
theorem test_table_words :
    (decodeTableWord 16 0x0100).isSome = true ∧ (decodeTableWord 8 0xE0).isSome = true ∧
    (decodeTableWord 32 0x03FC0000).isSome = true ∧ decodeTableWord 16 0x0000 = none ∧
    result (step (State.reset.withFetchWord 16 0x2000)) = some .nothing := by decide +kernel

/-! ### Single operations against 95_test_vectors.md and the examples of the rules -/

/-- R121 to R125: the examples. -/
theorem test_put_examples :
    run (.putU16 [0, 0] 0 7400) = some (.bytes [0x1C, 0xE8]) ∧
    run (.putU24 [0, 0, 0] 0 10) = some (.bytes [0, 0, 0x0A]) ∧
    run (.putU32 [0, 0, 0, 0] 0 0x3F800000) = some (.bytes [0x3F, 0x80, 0, 0]) ∧
    run (.putU56 [0, 0, 0, 0, 0, 0, 0] 0 0x0123456789ABCD) = some (.bytes [0x01, 0x23, 0x45, 0x67, 0x89, 0xAB, 0xCD]) ∧
    run (.putU64 (List.replicate 8 0) 0 0x0102030405060708) = some (.bytes [1, 2, 3, 4, 5, 6, 7, 8]) := by decide

/-- R126 to R130: the examples. -/
theorem test_get_examples :
    run (.getU16 [0x1C, 0xE8] 0) = some (.u16 7400) ∧ run (.getU24 [0, 0, 0x0A] 0) = some (.u24 10) ∧
    run (.getU32 [0x3F, 0x80, 0, 0] 0) = some (.u32 0x3F800000) ∧
    run (.getU56 [0x01, 0x23, 0x45, 0x67, 0x89, 0xAB, 0xCD] 0) = some (.u56 0x0123456789ABCD) ∧
    run (.getU64 [1, 2, 3, 4, 5, 6, 7, 8] 0) = some (.u64 0x0102030405060708) := by decide

/-- R131, R132: the examples. -/
theorem test_bits_examples :
    run (.putBits [0, 0] 0 12 0xABC) = some (.bytes [0xAB, 0xC0]) ∧
    run (.putBits [0xAB, 0xC0] 12 1 1) = some (.bytes [0xAB, 0xC8]) ∧
    run (.getBits [0xAB, 0xC8] 0 12) = some (.bits 12 0xABC) ∧ run (.getBits [0xAB, 0xC8] 13 1) = some (.bits 1 0) := by
  decide

/-- R140 to R142: the examples, a masked operand among them. -/
theorem test_identifiers :
    run (.makeId 5 32 10 20) = some (.u32 0x1480A014) ∧ run (.makeId 8 256 64 0x1ABC) = some (.u32 0xABC) ∧
    run (.splitId 0xF480A014) = some (.idFields 5 32 10 20) ∧ run (.wireId 131 10 20) = some (.u32 0x0E0CA014) ∧
    run (.wireId 8 10 20) = some (.u32 0x0420A014) := by decide

/-- R232: the published check value and the empty sequence. -/
theorem test_crc16 :
    run (.crc16 [0x31, 0x32, 0x33, 0x34, 0x35, 0x36, 0x37, 0x38, 0x39]) = some (.u16 0x29B1) ∧
    run (.crc16 []) = some (.u16 0xFFFF) ∧ run (.crc16 [0, 0]) = some (.u16 0x1D0F) := by decide +kernel

/-- R154 to R156: the examples. -/
theorem test_size_and_decode :
    run (.sizeOf 16) = some (.size (some 36)) ∧ run (.sizeOf 8) = some (.size (some 0)) ∧
    run (.sizeOf 255) = some (.size none) ∧
    run (.decode 32 [0, 0, 0x0A, 0x20, 0]) = some (.decoded (some ⟨32, [0, 0, 0x0A, 0x20, 0]⟩)) ∧
    run (.decode 32 [0, 0, 0x0A, 0x20]) = some (.decoded none) ∧ run (.decode 1 [0]) = some (.decoded none) := by decide

/-- 42_message_codecs.md: the examples of the `PACK` rules. -/
theorem test_pack_examples :
    run (.packReset ⟨0xABC, true, false⟩) = some (.bytes [0xAB, 0xC8]) ∧
    run (.packNodeStatus ⟨10, 0, 2, 0⟩) = some (.bytes [0, 0, 0x0A, 0x20, 0]) ∧
    run (.packVlStatus ⟨3, 7400⟩) = some (.bytes [3, 0x1C, 0xE8, 0, 0]) ∧
    run (.packAmpControl ⟨true, false, true, true⟩) = some (.bytes [0xB0]) ∧
    run (.packPayloadEpsOutputOverwrite ⟨1, 2, 3, 0xABC⟩) = some (.bytes [0x6E, 0xAF, 0]) ∧
    run (.packAck ⟨0x1234, 0x0AB⟩) = some (.bytes [0x12, 0x34, 0x0A, 0xB0]) ∧
    run (.packAmpOverwrite ⟨0, 1, 2, 3⟩) = some (.bytes [0x1B]) ∧
    run (.packAirBrakesControl ⟨500⟩) = some (.bytes [1, 0xF4, 0, 0, 0, 0]) ∧
    run (.packAmpOutStatus ⟨true, 2⟩) = some (.bytes [0xC0]) ∧
    run (.packEpsOutStatus ⟨0x1234, true, 3⟩) = some (.bytes [0x91, 0xA7]) := by decide +kernel

/-- R166, R198: the examples of the two longest layouts. -/
theorem test_pack_long_examples :
    run (.packRocketState ⟨0x3F800000, 0x40000000, 0x447A0000, 1000000, true⟩) =
      some (.bytes [0x3F, 0x80, 0, 0, 0x40, 0, 0, 0, 0x44, 0x7A, 0, 0, 0, 0, 0, 0, 0x0F, 0x42, 0x40, 0x80]) ∧
    run (.packDataTransfer ⟨Vector.replicate 32 9, 32, 7, true, false, 2, 0x5A3⟩) =
      some (.bytes (List.replicate 32 9 ++ [0x20, 0x07, 0xA5, 0xA3])) := by decide +kernel

/-- 42_message_codecs.md: the examples of the `UNPACK` rules, padding set in three of them. -/
theorem test_unpack_examples :
    run (.unpackReset [0xAB, 0xCB]) = some (.reset ⟨0xABC, true, false⟩) ∧
    run (.unpackNodeStatus [1, 2, 3, 0xDA, 0xAA]) = some (.nodeStatus ⟨0x010203, 3, 1, 0x555⟩) ∧
    run (.unpackVlStatus [0xC8, 0x1C, 0xE8, 0xFF, 0xFF]) = some (.vlStatus ⟨200, 7400⟩) ∧
    run (.unpackAmpControl [0xBF]) = some (.ampControl ⟨true, false, true, true⟩) ∧
    run (.unpackPayloadEpsOutputOverwrite [0x6E, 0xAF, 0]) = some (.payloadEpsOutputOverwrite ⟨1, 2, 3, 0xABC⟩) ∧
    run (.unpackAck [0x12, 0x34, 0x0A, 0xBF]) = some (.ack ⟨0x1234, 0x0AB⟩) ∧
    run (.unpackAmpOverwrite [0x1B]) = some (.ampOverwrite ⟨0, 1, 2, 3⟩) ∧
    run (.unpackAirBrakesControl [1, 0xF4, 0, 0, 0, 0]) = some (.airBrakesControl ⟨500⟩) ∧
    run (.unpackAmpOutStatus [0xC0]) = some (.ampOutStatus ⟨true, 2⟩) ∧
    run (.unpackEpsOutStatus [0x91, 0xA7]) = some (.epsOutStatus ⟨0x1234, true, 3⟩) := by decide +kernel

/-- R167, R199: unpacking the two longest layouts. -/
theorem test_unpack_long_examples :
    run (.unpackRocketState [0x3F, 0x80, 0, 0, 0x40, 0, 0, 0, 0x44, 0x7A, 0, 0, 0, 0, 0, 0, 0x0F, 0x42, 0x40, 0x80]) =
      some (.rocketState ⟨0x3F800000, 0x40000000, 0x447A0000, 1000000, true⟩) ∧
    run (.unpackDataTransfer (List.replicate 32 9 ++ [0x20, 0x07, 0xA5, 0xA3])) =
      some (.dataTransfer ⟨Vector.replicate 32 9, 32, 7, true, false, 2, 0x5A3⟩) := by decide +kernel

/-- R162 to R205: an opaque body is moved as it is, refused at another length; `UNPACK` drops what is beyond. -/
theorem test_opaque :
    run (.packUnixTime [0, 0, 0, 0, 0x0F, 0x42, 0x40]) = some (.bytes [0, 0, 0, 0, 0x0F, 0x42, 0x40]) ∧
    refusal (exec (.packIcarusStatus [1, 2, 3, 4, 5]) State.reset) = some .badBodyLength ∧
    run (.unpackAmpResetOutput [7, 8]) = some (.bytes [7]) ∧
    refusal (exec (.unpackBaroMeasurement (List.replicate 12 0)) State.reset) = some .bodyTooShort := by decide

/-! ### States for the two units -/

/-- The body of the source's scenario S1. -/
def bodyS1 : Bytes := [0x00, 0x00, 0x0A, 0x20, 0x00]

/-- The body of the source's scenario S2. -/
def bodyS2 : Bytes := [0x1C, 0xE8, 0, 0, 0, 0, 0, 0, 0, 0, 0, 0, 0, 0]

/-- S1 loaded. -/
def loadedS1 : State := after (exec (.txLoad 32 bodyS1 10 20) State.reset)

/-- S2 loaded. -/
def loadedS2 : State := after (exec (.txLoad 34 bodyS2 10 20) State.reset)

/-- S2 after its first frame. -/
def firstS2 : State := after (exec .txNext loadedS2)

/-- S2 after its second frame. -/
def middleS2 : State := after (exec .txNext firstS2)

/-- A decoder with a transfer of S2 in slot 0, five bytes long (the example of 45_rx_decoder.md R269). -/
def openS2 : State := after (exec (.rxFrame 0x1488A014 [0x11, 0xB0, 0x1C, 0xE8, 0, 0, 0, 0x80] 1000) State.reset)

/-- The same, twelve bytes long. -/
def grownS2 : State := after (exec (.rxFrame 0x1488A014 [0, 0, 0, 0, 0, 0, 0, 0x20] 1001) openS2)

/-- A slot of one identifier. -/
def slotOf (id : BitVec 29) (ts : BitVec 64) (len : Fin 257) : Slot :=
  ⟨true, id, ts, 0, ⟨(List.replicate len.val 7).zipIdx.map fun x => (x.2, x.1)⟩, len⟩

/-- A time for slot `k`: slots 2 and 5 the oldest. -/
def timeOf (k : Nat) : BitVec 64 := if k = 2 ∨ k = 5 then 3 else BitVec.ofNat 64 (1000 + k)

/-- A decoder with all slots occupied, by identifiers 1 to 8. -/
def full : State :=
  { State.reset with
    rx := Vector.ofFn fun k : Fin 8 => slotOf (BitVec.ofNat 29 (k.val + 1)) (timeOf k) 5 }

/-- A decoder with identifier 1 in slot 0, a body of 250 bytes. -/
def long : State := { State.reset with rx := setSlot RxUnit.atReset 0 (slotOf 1 9 250) }

/-- S1 on the transmit side (R240, R243). -/
theorem test_tx_single :
    loadedS1.tx.id = 0x1480A014 ∧ loadedS1.tx.crc = 0xD02B ∧ loadedS1.tx.len = 5 ∧
    result (exec .txHasNext loadedS1) = some (.hasNext true) ∧
    result (exec .txNext loadedS1) = some (.frame 0x1480A014 [0, 0, 0x0A, 0x20, 0, 0xC0]) ∧
    refusal (exec .txNext State.reset) = some .nothingToSend := by decide +kernel

/-- S2 on the transmit side, tails corrected (R244 to R246, 90_conflicts.md C2). -/
theorem test_tx_multi :
    result (exec .txNext loadedS2) = some (.frame 0x1488A014 [0x11, 0xB0, 0x1C, 0xE8, 0, 0, 0, 0x80]) ∧
    result (exec .txNext firstS2) = some (.frame 0x1488A014 [0, 0, 0, 0, 0, 0, 0, 0x20]) ∧
    result (exec .txNext middleS2) = some (.frame 0x1488A014 [0, 0, 0x40]) := by decide +kernel

/-- S1 and a set toggle on the receive side (R261, R266). -/
theorem test_rx_single :
    run (.rxFrame 0x1480A014 [0, 0, 0x0A, 0x20, 0, 0xC0] 1000) =
      some (.received (some ⟨0x1480A014, 0xD02B, ⟨32, bodyS1⟩⟩)) ∧
    run (.frameSingle 0 0x1480A014 bodyS1 1000) = some (.received (some ⟨0x1480A014, 0xD02B, ⟨32, bodyS1⟩⟩)) ∧
    run (.frameSingleBadtog 0 0x1480A014 bodyS1 0) = some (.received none) ∧
    run (.rxFrame 0x0420A014 [0xC0] 0) = some (.received (some ⟨0x0420A014, 0xFFFF, ⟨8, []⟩⟩)) := by decide +kernel

/-- The opening of S2 (R269), a wrong toggle (R272) and the next frame (R274). -/
theorem test_rx_open :
    (slotAt openS2.rx 0).occ = true ∧ (slotAt openS2.rx 0).id = 0x1488A014 ∧ (slotAt openS2.rx 0).crc = 0xB011 ∧
    (slotAt openS2.rx 0).len = 5 ∧
    (after (exec (.rxFrame 0x1488A014 [0, 0, 0, 0, 0, 0, 0, 0] 1001) openS2)).rx = openS2.rx ∧
    (slotAt grownS2.rx 0).len = 12 ∧
    (slotAt (after (exec (.frameMiddle true 0 0x1488A014 [1, 2] 7) openS2)).rx 0).len = 7 := by decide +kernel

/-- The end of S2 (R275): delivered, and the slot is empty again; with the first CRC byte wrong, nothing (R304). -/
theorem test_rx_complete :
    result (exec (.rxFrame 0x1488A014 [0, 0, 0x40] 1002) grownS2) =
      some (.received (some ⟨0x1488A014, 0xB011, ⟨34, bodyS2⟩⟩)) ∧
    (slotAt (after (exec (.frameLast false 0 0x1488A014 [0, 0] 1002) grownS2)).rx 0).occ = false ∧
    result (exec (.rxFrame 0x1488A014 [0, 1, 0x40] 1002) grownS2) = some (.received none) := by decide +kernel

/-- Eviction of the oldest, the least index among equals (R268, R276): by an opening frame, and by a stray one. -/
theorem test_rx_evict :
    (slotAt (after (exec (.frameFirst 0 99 [1, 2, 3] 2000) full)).rx 2).id = 99 ∧
    (slotAt (after (exec (.frameFirstBadtog 0 99 [1, 2, 3] 2000) full)).rx 2).occ = false ∧
    slotAt (after (exec (.frameFirst 0 99 [1, 2, 3] 2000) full)).rx 5 = slotAt full.rx 5 := by decide +kernel

/-- Overflow clears the slot (R273); a body of exactly 256 bytes is kept. -/
theorem test_rx_overflow :
    (slotAt (after (exec (.rxFrame 1 [0, 0, 0, 0, 0, 0, 0, 0] 0) long)).rx 0).occ = false ∧
    (slotAt (after (exec (.rxFrame 1 [0, 0, 0, 0, 0, 0, 0] 0) long)).rx 0).len = 256 := by decide +kernel

/-- The log channel, the empty frame and a frame of nine bytes (R263, R264, R261); an identifier row. -/
theorem test_rx_filters :
    run (.rxFrame 0x17FCA014 [1, 2, 0xC0] 5) = some (.received none) ∧ run (.rxFrame 0 [] 5) = some (.received none) ∧
    refusal (exec (.rxFrame 0 (List.replicate 9 0) 5) State.reset) = some .frameTooLong ∧
    run (.idNodeStatus ⟨0, 5, 10, 20⟩ [0, 0, 0x0A, 0x20, 0, 0xC0] 1000) =
      some (.received (some ⟨0x1480A014, 0xD02B, ⟨32, bodyS1⟩⟩)) ∧
    run (.idLogChannel ⟨0, 5, 10, 20⟩ [1, 0xC0] 9) = some (.received none) := by decide +kernel

/-- `RX_RESET` empties every slot (R260). -/
theorem test_rx_reset : ∀ k : Fin 8, (slotAt (after (exec .rxReset full)).rx k).occ = false := by decide +kernel

/-- The buffers of the reset state have the canonical form, and every byte of them is 0 (20_memory.md R50, log 7). -/
theorem test_reset_memory :
    State.reset.tx.buf.wf = true ∧ (∀ x < 64, State.reset.tx.buf.read x = 0) ∧
    ∀ k : Fin 8, (slotAt State.reset.rx k).buf.wf = true ∧ ∀ x < 256, (slotAt State.reset.rx k).buf.read x = 0 := by
  decide +kernel

/-- Writing what an unlisted address holds takes the cell out, so equal buffers are equal data (log 7). -/
theorem test_buffer_canonical :
    (((Memory.atReset 64).write 5 7).write 3 9).write 5 0 = (Memory.atReset 64).write 3 9 ∧
    ((Memory.atReset 64).write 5 7).write 3 9 = ((Memory.atReset 64).write 3 9).write 5 7 := by decide

/-! ### Witnesses: states and operands that meet the hypotheses of each obligation -/

/-- A request waiting, and what it decodes to. -/
theorem witness_StepRunsDecoded :
    (State.reset.present (cmd 0b10000100000000#14 [] [])).requests = cmd 0b10000100000000#14 [] [] :: [] ∧
    decode (cmd 0b10000100000000#14 [] []) = .ok .txHasNext := ⟨rfl, rfl⟩

theorem witness_StepWithoutOperation :
    ((State.reset.present (cmd 0 [] [])).requests = cmd 0 [] [] :: [] ∧
      decode (cmd 0 [] []) = .error .unassignedCmd) ∧ State.reset.requests = [] := ⟨⟨rfl, rfl⟩, rfl⟩

theorem witness_DecodeOfEncode :
    (Instr.putBits [] 0 64 (2 ^ 64 - 1)).wellFormed = true ∧ (Instr.crc16 (List.replicate 256 1)).wellFormed = true ∧
    Instr.txNext.wellFormed = true := by decide +kernel

/-- With an ignored `sel`, and with one that selects. -/
theorem witness_DecodeKeepsEverything :
    reads (cmd 0b10000111111111#14 [] []) .txHasNext = true ∧ reads (cmd 0b01100100010000#14 [] []) (.sizeOf 16) = true :=
  by decide

theorem witness_UnassignedWordsRefused :
    (ignoresSel 0x00 = false ∧ 0x00#6 ∉ [0x12#6, 0x19, 0x1A, 0x20, 0x30, 0x31, 0x32, 0x33]) ∧
    (ignoresSel 0x3F = false ∧ 0x3F#6 ∉ [0x12#6, 0x19, 0x1A, 0x20, 0x30, 0x31, 0x32, 0x33]) ∧
    ¬ Known 1 ∧ ¬ Known 255 ∧ 1 < (2 : BitVec 8).toNat ∧
    (¬ Known ((0x00040000 : BitVec 32).extractLsb 25 18) ∧ (0x00040000 : BitVec 32).extractLsb 25 18 ≠ 255#8) := by
  unfold Known; decide

/-- `PutFixedWidth`, `GetFixedWidth`: a buffer one byte short, and one just long enough, for each width. -/
theorem witness_PutFixedWidth :
    ∀ n ∈ [2, 3, 4, 7, 8], (List.replicate n 0#8).length < 1 + n ∧ 1 + n ≤ (List.replicate (n + 1) 0#8).length := by decide

/-- `PUT_BITS`: widths 0 and 65, one bit too far, exactly at the end, and a bit on each side of the field. -/
theorem witness_PutBits :
    (0 < 2 ^ 0 ∧ 0 < 1) ∧ (0 < 2 ^ 65 ∧ 64 < 65) ∧ (7 < 2 ^ 3 ∧ 1 ≤ 3 ∧ 3 ≤ 64 ∧ 8 * [0#8].length < 6 + 3) ∧
    (7 < 2 ^ 3 ∧ 5 + 3 ≤ 8 * [0#8].length) ∧ (2 < 3 ∧ 4 < 5 ∧ 1 + 3 ≤ 4 ∧ 4 < 8 * [0#8].length) := by decide

theorem witness_GetBits :
    (0 < 1 ∧ 64 < 65) ∧ (1 ≤ 64 ∧ 64 ≤ 64 ∧ 8 * (List.replicate 8 0#8).length < 1 + 64) ∧
    0 + 64 ≤ 8 * (List.replicate 8 0#8).length := by decide

theorem witness_BitIoRoundTrip :
    1 ≤ 64 ∧ 64 ≤ 64 ∧ 2 ^ 64 - 1 < 2 ^ 64 ∧ 8 + 64 ≤ 8 * (List.replicate 9 0#8).length ∧ 7 < 8 ∧ 8 + 64 ≤ 72 := by decide

theorem witness_IdentifierLaws :
    (0x1FFFFFFF : BitVec 32).toNat < 2 ^ 29 ∧
    run (.makeId ((7 : BitVec 3).setWidth 32) ((255 : BitVec 8).setWidth 32) ((63 : BitVec 6).setWidth 32)
      ((4095 : BitVec 12).setWidth 32)) = some (.u32 0x1FFFFFFF) := by decide

/-- A `sel` outside the catalogue, and the first and the last row of it (`WireId`, `SizeOf`, `Decode`, `TxLoad`). -/
theorem witness_WireId :
    ¬ Known 1 ∧ (⟨0, some 0, 2⟩ ∈ catalogue ∧ 0 = (0 : BitVec 8).toNat) ∧
    (⟨160, some 5, 6⟩ ∈ catalogue ∧ 160 = (160 : BitVec 8).toNat) ∧ ⟨8, none, 0⟩ ∈ catalogue := by
  unfold Known; decide

theorem witness_Crc16IsBitSerial : (List.replicate 256 0#8).length ≤ 256 := by decide +kernel

theorem witness_CrcTellsOneBit :
    ([0x80#8, 0].length = [0x80#8, 1].length ∧ 15 < 8 * [0x80#8, 0].length ∧
      bit [0x80, 0] 15 ≠ bit [0x80, 1] 15) ∧ ∀ q, q ≠ 15 → bit [0x80, 0] q = bit [0x80, 1] q := by
  refine ⟨by decide, fun q hq => ?_⟩
  by_cases h : q < 16
  · interval_cases q <;> first | rfl | exact absurd rfl hq
  · have h2 : 2 ≤ q / 8 := by omega
    obtain ⟨k, hk⟩ := Nat.exists_eq_add_of_le' h2
    simp [bit, at', hk]

/-- `DECODE`: the exact length, one byte less and one byte more, at the default parameter; and 256 bytes. -/
theorem witness_Decode :
    State.reset.params.acceptLenDepartures = [] ∧ (⟨32, some 5, 5⟩ ∈ catalogue ∧ 32 = (32 : BitVec 8).toNat) ∧
    bodyS1.length = 5 ∧ [0#8, 0, 0, 0].length < 5 ∧ 5 ≤ [0#8, 0, 0, 0, 0, 0].length ∧
    (List.replicate 256 0#8).length ≤ 256 := by decide +kernel

/-- `CodecsWithNodeId`, `CodecsOfStatus`, `CodecsOfAmp`, `CodecsOfRocket`, `CodecsPartlyInferred`, `OpaqueStatusCodecs`,
`OpaqueMeasurementCodecs`: bodies of the exact length, one byte short and one byte long, for every size they name. -/
theorem witness_Codecs :
    ∀ n ∈ [1, 2, 3, 4, 5, 6, 7, 11, 13, 14, 16, 19, 20, 31, 36],
      (List.replicate (n - 1) 0#8).length < n ∧ n ≤ (List.replicate (n + 1) 0#8).length ∧
      (List.replicate n 0#8).length = n ∧ (List.replicate (n + 1) 0#8).length ≠ n := by decide +kernel

/-- `CodecRoundTrip`: a body that is unpacked, with its padding zero and with it set. -/
theorem witness_CodecRoundTrip :
    run (.unpackReset [0xAB, 0xC8]) = some (.reset ⟨0xABC, true, false⟩) ∧
    run (.unpackReset [0xAB, 0xCB]) = some (.reset ⟨0xABC, true, false⟩) ∧ run (.unpackPreUnixTime []) = some .preUnixTime ∧
    run (.unpackAmpResetOutput [7, 8]) = some (.bytes [7]) := by decide +kernel

theorem witness_PackedLength :
    decode (cmd 0b11000001000101#14 [] [500]) = .ok (.packAirBrakesControl ⟨500⟩) ∧
    packedClass (cmd 0b11000001000101#14 [] [500]) = some 69 ∧
    run (.packAirBrakesControl ⟨500⟩) = some (.bytes [1, 0xF4, 0, 0, 0, 0]) := ⟨rfl, by decide, by decide +kernel⟩

theorem witness_TxLoad :
    (⟨34, some 5, 14⟩ ∈ catalogue ∧ 34 = (34 : BitVec 8).toNat) ∧ bodyS2.length = 14 ∧ bodyS1.length ≠ 14 := by decide

/-- A transfer with frames left, one with none, and reset. -/
theorem witness_TxHasNext :
    loadedS1.tx.offset.val < loadedS1.tx.len.val ∧ State.reset.tx.len.val ≤ State.reset.tx.offset.val ∧
    (after (exec .txNext loadedS1)).tx.len.val ≤ (after (exec .txNext loadedS1)).tx.offset.val := by decide +kernel

/-- Bodies of 1, 7 and 8 bytes at the start of their transfer. -/
def tx (body : Bytes) (offset : Fin 65) (toggle : Bool) : State :=
  { State.reset with
    tx := { id := 5, buf := (Memory.atReset 64).writeBytes 0 body, len := Fin.ofNat 65 body.length, crc := crc16 body,
            offset := offset, toggle := toggle } }

theorem witness_TxNextAtStart :
    ∀ n ∈ [1, 7, 8], Loaded (tx (List.replicate n 3) 0 false).tx (List.replicate n 3) ∧
      (tx (List.replicate n 3) 0 false).tx.offset.val = 0 ∧ (tx (List.replicate n 3) 0 false).tx.len.val = n := by
  unfold Loaded; decide +kernel

/-- A LAST frame of one byte and of seven, and a MIDDLE frame with one byte left after it. -/
theorem witness_TxNextLater :
    ∀ n ∈ [6, 12, 13], Loaded (tx (List.replicate n 3) 5 true).tx (List.replicate n 3) ∧
      0 < (tx (List.replicate n 3) 5 true).tx.offset.val ∧
      (tx (List.replicate n 3) 5 true).tx.offset.val < (tx (List.replicate n 3) 5 true).tx.len.val ∧
      (tx (List.replicate n 3) 5 true).tx.len.val = n := by unfold Loaded; decide +kernel

theorem witness_TxSequence :
    (Loaded loadedS1.tx bodyS1 ∧ loadedS1.tx.offset.val = 0 ∧ loadedS1.tx.toggle = false) ∧
    (Loaded loadedS2.tx bodyS2 ∧ loadedS2.tx.offset.val = 0 ∧ loadedS2.tx.toggle = false ∧ 8 ≤ bodyS2.length) := by
  unfold Loaded; decide +kernel

theorem witness_TxInv : TxUnit.Inv loadedS1.tx ∧ TxUnit.Inv firstS2.tx := by
  constructor
  · unfold TxUnit.Inv; decide +kernel
  · unfold TxUnit.Inv; decide +kernel

theorem witness_RxInv : RxUnit.Inv openS2.rx ∧ RxUnit.Inv full.rx := by
  constructor
  · exact ⟨by unfold Slot.Inv; decide +kernel, by decide +kernel⟩
  · exact ⟨by unfold Slot.Inv; decide +kernel, by decide +kernel⟩

/-- A decoder with one transfer, beside a loaded one. -/
def busy : State := { openS2 with tx := loadedS1.tx }

/-- A full decoder, beside a transfer half sent. -/
def crowded : State := { full with tx := firstS2.tx }

/-- `InvariantKept`, `NoStepFaults`: states that keep the invariant. -/
theorem witness_Inv : State.Inv busy ∧ State.Inv crowded :=
  ⟨⟨witness_TxInv.1, witness_RxInv.1⟩, witness_TxInv.2, witness_RxInv.2⟩

/-- An owned identifier and a free one, on a decoder with room and on a full one. -/
theorem witness_FrameRowsComplete :
    State.Inv busy ∧ mtOf ((0x1488A014 : BitVec 32).setWidth 29) ≠ 255 ∧
    Owns busy 0 ((0x1488A014 : BitVec 32).setWidth 29) ∧ true = expected busy.params (slotAt busy.rx 0).len ∧
    (slotAt busy.rx 0).len.val + (List.replicate 7 0#8).length ≤ 256 ∧
    State.Inv crowded ∧ mtOf ((99 : BitVec 32).setWidth 29) ≠ 255 ∧
    (∀ k, ¬ Owns busy k ((99 : BitVec 32).setWidth 29)) ∧ (∀ k, ¬ Owns crowded k ((99 : BitVec 32).setWidth 29)) ∧
    4 ≤ [1#8, 2, 3].length + 1 ∧ (List.replicate 7 0#8).length ≤ 7 := by
  unfold Owns; exact ⟨witness_Inv.1, by decide, by decide, by decide +kernel, by decide +kernel, witness_Inv.2, by decide,
    by decide +kernel, by decide +kernel, by decide, by decide⟩

theorem witness_RxIgnoresReservedBits :
    (0xF480A014 : BitVec 32).extractLsb 28 0 = (0x1480A014 : BitVec 32).extractLsb 28 0 := by decide

theorem witness_RxFiltersAndLengths :
    8 < (List.replicate 9 0#8).length ∧
    ((List.replicate 8 0#8).length ≤ 8 ∧ mtOf ((0x17FCA014 : BitVec 32).setWidth 29) = 255) := by decide

theorem witness_RxSingleFrame :
    (List.replicate 7 0#8).length ≤ 7 ∧ mtOf ((0x1480A014 : BitVec 32).setWidth 29) ≠ 255 := by decide

/-- One body byte and five; the first empty slot is 0 at reset and 1 beside an open transfer. -/
theorem witness_RxOpens :
    (1 ≤ [9#8].length ∧ [9#8, 9, 9, 9, 9].length ≤ 5 ∧ mtOf ((99 : BitVec 32).setWidth 29) ≠ 255) ∧
    ((∀ j, ¬ Owns State.reset j ((99 : BitVec 32).setWidth 29)) ∧ (slotAt State.reset.rx 0).occ = false) ∧
    ((∀ j, ¬ Owns openS2 j ((99 : BitVec 32).setWidth 29)) ∧ (slotAt openS2.rx 1).occ = false ∧
      ∀ j < (1 : Fin 8), (slotAt openS2.rx j).occ = true) := by unfold Owns; decide +kernel

/-- A short opening frame (two bytes before the tail), a bad toggle, a middle and a last frame. -/
theorem witness_RxDropsStrays :
    (∀ j, ¬ Owns openS2 j ((99 : BitVec 32).setWidth 29)) ∧ (slotAt openS2.rx 7).occ = false ∧
    ¬ (true = true ∧ false = true) ∧ ¬ (true = true ∧ false = false ∧ false = false ∧ 4 ≤ [1#8, 2].length + 1) ∧
    ¬ (true = true ∧ false = false ∧ true = false ∧ 4 ≤ [1#8, 2, 3].length + 1) := by unfold Owns; decide +kernel

/-- An owned slot, alone of its identifier, with the wrong toggle and with SOT. -/
theorem witness_RxPolices :
    Owns openS2 0 ((0x1488A014 : BitVec 32).setWidth 29) ∧
    (∀ j, Owns openS2 j ((0x1488A014 : BitVec 32).setWidth 29) → j = 0) ∧
    false ≠ expected openS2.params (slotAt openS2.rx 0).len ∧ ¬ (true = true ∧ false = true) := by unfold Owns; decide +kernel

/-- 250 bytes and 7 more. -/
theorem witness_RxOverflows :
    Owns long 0 ((1 : BitVec 32).setWidth 29) ∧ (∀ j, Owns long j ((1 : BitVec 32).setWidth 29) → j = 0) ∧
    mtOf ((1 : BitVec 32).setWidth 29) ≠ 255 ∧ false = expected long.params (slotAt long.rx 0).len ∧
    256 < (slotAt long.rx 0).len.val + (List.replicate 7 0#8).length := by unfold Owns; decide +kernel

/-- 250 bytes and 6 more, and none more. -/
theorem witness_RxAppends :
    Owns long 0 ((1 : BitVec 32).setWidth 29) ∧ (∀ j, Owns long j ((1 : BitVec 32).setWidth 29) → j = 0) ∧
    false = expected long.params (slotAt long.rx 0).len ∧
    (slotAt long.rx 0).len.val + (List.replicate 6 0#8).length ≤ 256 ∧ (slotAt long.rx 0).len.val + 0 ≤ 256 := by
  unfold Owns; decide +kernel

theorem witness_RxCompletes :
    Owns openS2 0 ((0x1488A014 : BitVec 32).setWidth 29) ∧
    (∀ j, Owns openS2 j ((0x1488A014 : BitVec 32).setWidth 29) → j = 0) ∧
    true = expected openS2.params (slotAt openS2.rx 0).len ∧ bodyS1.length = (slotAt openS2.rx 0).len.val ∧
    (∀ x < 5, Memory.read (slotAt openS2.rx 0).buf x = at' [0x1C#8, 0xE8, 0, 0, 0] x) ∧ 5 + 7 ≤ 256 := by
  unfold Owns; decide +kernel

/-- All slots occupied, slots 2 and 5 equally old. -/
theorem witness_RxEvicts :
    (∀ j, ¬ Owns full j ((99 : BitVec 32).setWidth 29)) ∧ (∀ j : Fin 8, (slotAt full.rx j).occ = true) ∧
    (∀ j : Fin 8, (slotAt full.rx 2).ts.toNat ≤ (slotAt full.rx j).ts.toNat) ∧
    (∀ j < (2 : Fin 8), (slotAt full.rx j).ts ≠ (slotAt full.rx 2).ts) ∧ (slotAt full.rx 5).ts = (slotAt full.rx 2).ts ∧
    ¬ (true = true ∧ false = false ∧ true = false ∧ 4 ≤ [1#8, 2, 3].length + 1) := by unfold Owns; decide +kernel

/-- A class of one frame and one of three, on a decoder with other transfers. -/
theorem witness_EndToEnd :
    (⟨32, some 5, 5⟩ ∈ catalogue ∧ 32 = (32 : BitVec 8).toNat ∧ bodyS1.length = 5) ∧
    (⟨34, some 5, 14⟩ ∈ catalogue ∧ 34 = (34 : BitVec 8).toNat ∧ bodyS2.length = 14) ∧
    ∀ k, ¬ Owns full k ((0x1488A014 : BitVec 32).setWidth 29) := by unfold Owns; decide +kernel

theorem witness_FlippedBitLosesTransfer :
    exec (.txLoad 34 bodyS2 10 20) State.reset = .next loadedS2 ∧
    (send 65 loadedS2).1[2]? = some ⟨0x1488A014, [0, 0, 0x40]⟩ ∧ 1 + 1 < [0#8, 0, 0x40].length ∧ 7 < 8 ∧
    ∀ k, ¬ Owns State.reset k 0x1488A014 := ⟨rfl, by decide +kernel, by unfold Owns; decide +kernel⟩

/-- Nine identifiers, nine times, nine opening frames, and the decoder after `RX_RESET`. -/
theorem witness_LruLaw :
    (∀ j : Fin 9, mtOf ((BitVec.ofNat 32 j.val).setWidth 29) ≠ 255) ∧
    (∀ i j : Fin 9, (BitVec.ofNat 32 i.val).setWidth 29 = (BitVec.ofNat 32 j.val).setWidth 29 → i = j) ∧
    (∀ i j : Fin 9, i < j → (BitVec.ofNat 64 (1000 + i.val)).toNat < (BitVec.ofNat 64 (1000 + j.val)).toNat) ∧
    [1#8, 2, 3, 0x80] = [1, 2] ++ [3] ++ [tail true false false 0] ∧ (1 ≤ [3#8].length ∧ [3#8].length ≤ 5) ∧
    exec .rxReset full = .next (after (exec .rxReset full)) :=
  ⟨by decide, by decide +kernel, by decide, rfl, by decide, rfl⟩

theorem witness_IdentRowsAreRxFrames :
    State.Inv crowded ∧ (List.replicate 8 0#8).length ≤ 8 ∧ (.idLogChannel, 255) ∈ identRows :=
  ⟨witness_Inv.2, by decide, by simp [identRows]⟩

/-- What the rules name no refusal for has none (`NoStepFaults`): a `PACK` with fields, `PACK` and `UNPACK` of the class of size
0, a class of the catalogue; and an opaque `PACK`, a class outside the catalogue and another `UNPACK` have theirs. -/
theorem test_refusals :
    refusals (.packReset ⟨1, true, false⟩) = [] ∧ refusals .packPreUnixTime = [] ∧ refusals (.unpackPreUnixTime []) = [] ∧
    refusals (.wireId 160 0 0) = [] ∧ refusals (.packAmpOutStatus ⟨true, 3⟩) = [] ∧ refusals (.crc16 []) = [] ∧
    refusals (.packUnixTime []) = [.badBodyLength] ∧ refusals (.wireId 161 0 0) = [.unknownClass] ∧
    refusals (.txLoad 160 [] 0 0) = [.badBodyLength] ∧ refusals (.unpackAmpOutStatus []) = [.bodyTooShort] := by decide

/-- A state that keeps the invariant, with a request that completes and with one that is refused (`NoStepFaults`). -/
def waiting (r : Request) : State := { crowded with requests := [r] }

theorem witness_InvariantKept :
    State.Inv (waiting (encode .txNext)) ∧
    step (waiting (encode .txNext)) = .next (after (step (waiting (encode .txNext)))) :=
  ⟨witness_Inv.2, by rfl⟩

theorem witness_PureOperations :
    isTx (.sizeOf 1) = false ∧ isRx (.sizeOf 1) = false ∧ run (.sizeOf 1) = some (.size none) := by decide

/-- An operation of each unit. -/
theorem witness_UnitsIndependent :
    (isRx .txNext = false ∧ result (exec .txNext loadedS1) ≠ none) ∧
    (isTx .rxReset = false ∧ result (exec .rxReset full) ≠ none) := by decide +kernel

/-- Another transfer is kept, or is the oldest of a full decoder; and no slot holds the log channel. -/
theorem witness_SlotIsolation :
    ((slotAt openS2.rx 0).occ = true ∧ (slotAt openS2.rx 0).id ≠ (99 : BitVec 32).setWidth 29) ∧
    ((slotAt full.rx 2).occ = true ∧ (slotAt full.rx 2).id ≠ (99 : BitVec 32).setWidth 29) ∧
    (∀ k : Fin 8, (slotAt full.rx k).occ = true → mtOf (slotAt full.rx k).id ≠ 255) ∧
    result (exec (.rxFrame 99 [1, 2, 3, 0x80] 5) full) = some (.received none) := by decide +kernel

/-- Two states that differ in an empty slot and in `tx_id`: a step that completes, and one that is refused. -/
theorem witness_UnspecifiedIsUnobservable :
    Agree State.reset
      { State.reset with
        tx := { State.reset.tx with id := 7 }, rx := setSlot State.reset.rx 3 { Slot.atReset with crc := 9 } } ∧
    step (State.reset.present (encode .rxReset)) = .next (after (step (State.reset.present (encode .rxReset)))) ∧
    step (State.reset.present (encode .txNext)) = .refused .nothingToSend :=
  ⟨by unfold Agree; decide +kernel, rfl, rfl⟩

end Sys2Proof.Tests
end

section
/-! SUPPORT. The family of 00_scope.md: what a step does with the next request, and what each operation reads, writes
and can be refused for. `RunsOn` says the last once, of a part of the state (no unit, the TX unit, the RX unit), and
`exec_runsOn` says of every operation on which part it runs. -/

namespace Sys2Proof.Proofs

open Sys2Proof.Machine Sys2Proof.Claims

/-! ### One step, by what the next request decodes to -/

theorem step_of_decode_ok {s : State} {r : Request} {rest : List Request} {i : Instr} (hs : s.requests = r :: rest)
    (hr : decode r = .ok i) : step s = exec i (s.setRequests rest) := by
  simp [step, hs, hr]

theorem step_of_decode_error {s : State} {r : Request} {rest : List Request} {e : DecodeError}
    (hs : s.requests = r :: rest) (hr : decode r = .error e) : step s = .refused (.request e) := by
  simp [step, hs, hr]

theorem step_of_no_request {s : State} (hs : s.requests = []) : step s = .next s := by
  simp [step, hs]

/-! ### The decoder answers well-formed operations -/

/-- An answer of the decoder that is an error or a well-formed operation. -/
def WellFormedAnswer (a : Except DecodeError Instr) : Prop := ∀ i, a = .ok i → i.wellFormed = true

theorem wellFormedAnswer_error (e : DecodeError) : WellFormedAnswer (.error e) := nofun

theorem wellFormedAnswer_accept {b : Bundle} {most : Option Nat} {ws : List (Option Nat)} {i : Instr}
    (hi : bytesFit most b.bytes = true → i.wellFormed = true) : WellFormedAnswer (accept b most ws i) := by
  intro j hj
  obtain ⟨hbytes, -, rfl⟩ := accept_eq_ok.mp hj
  exact hi hbytes

theorem wellFormedAnswer_acceptDataTransfer (b : Bundle) : WellFormedAnswer (acceptDataTransfer b) := by
  unfold acceptDataTransfer
  split
  · exact wellFormedAnswer_accept fun _ => rfl
  · exact wellFormedAnswer_error _

theorem wellFormedAnswer_decodePack (sel : BitVec 8) (b : Bundle) : WellFormedAnswer (decodePack sel b) := by
  unfold decodePack
  split
  case h_4 => exact wellFormedAnswer_acceptDataTransfer b
  case h_22 => exact wellFormedAnswer_error _
  all_goals exact wellFormedAnswer_accept fun _ => rfl

theorem wellFormedAnswer_decodeUnpack (sel : BitVec 8) (b : Bundle) : WellFormedAnswer (decodeUnpack sel b) := by
  unfold decodeUnpack
  split
  case h_22 => exact wellFormedAnswer_error _
  all_goals exact wellFormedAnswer_accept fun _ => rfl

theorem wellFormedAnswer_decodePackSub (sel : BitVec 8) (b : Bundle) : WellFormedAnswer (decodePackSub sel b) := by
  unfold decodePackSub
  split
  case h_3 => exact wellFormedAnswer_error _
  all_goals exact wellFormedAnswer_accept fun _ => rfl

theorem wellFormedAnswer_decodeUnpackSub (sel : BitVec 8) (b : Bundle) :
    WellFormedAnswer (decodeUnpackSub sel b) := by
  unfold decodeUnpackSub
  split
  case h_3 => exact wellFormedAnswer_error _
  all_goals exact wellFormedAnswer_accept fun _ => rfl

/-- Three commands have ports to check: the value of `PUT_BITS`, and the bytes of `CRC16` and `DECODE` (log 12). -/
theorem wellFormedAnswer_decodeCmd (w : BitVec 14) (b : Bundle) : WellFormedAnswer (decodeCmd w b) := by
  unfold decodeCmd
  split
  case h_11 =>
    split
    next hfits => exact wellFormedAnswer_accept fun _ => hfits
    next => exact wellFormedAnswer_error _
  case h_16 => exact wellFormedAnswer_accept fun hbytes => hbytes
  case h_18 => exact wellFormedAnswer_accept fun hbytes => hbytes
  case h_24 => exact wellFormedAnswer_decodePack _ b
  case h_25 => exact wellFormedAnswer_decodeUnpack _ b
  case h_26 => exact wellFormedAnswer_decodePackSub _ b
  case h_27 => exact wellFormedAnswer_decodeUnpackSub _ b
  case h_28 => exact wellFormedAnswer_error _
  all_goals exact wellFormedAnswer_accept fun _ => rfl

theorem wellFormedAnswer_decodeTail (t : Byte) (b : Bundle) : WellFormedAnswer (decodeTail t b) :=
  wellFormedAnswer_accept fun _ => by split <;> rfl

theorem wellFormedAnswer_decodeIdent (id : BitVec 32) (b : Bundle) : WellFormedAnswer (decodeIdent id b) := by
  unfold decodeIdent
  dsimp only
  split
  case h_23 => exact wellFormedAnswer_error _
  all_goals exact wellFormedAnswer_accept fun _ => rfl

theorem wellFormed_of_decode {r : Request} {i : Instr} (h : decode r = .ok i) : i.wellFormed = true := by
  unfold decode at h
  split at h
  · exact wellFormedAnswer_decodeCmd _ _ _ h
  · exact wellFormedAnswer_decodeTail _ _ _ h
  · exact wellFormedAnswer_decodeIdent _ _ _ h

/-! ### A part of the state, and the operations that run on it alone -/

/-- A part of the state with the registers of a unit. Writing it leaves the parameters and the waiting requests. -/
structure Part (α : Type) where
  get : State → α
  set : State → α → State
  set_get : ∀ s, set s (get s) = s
  set_params : ∀ s a, (set s a).params = s.params
  set_requests : ∀ s a, (set s a).requests = s.requests

/-- No unit at all: the part of the pure operations (20_memory.md R64). -/
def noPart : Part Unit := ⟨fun _ => (), fun s _ => s, fun _ => rfl, fun _ _ => rfl, fun _ _ => rfl⟩

def txPart : Part TxUnit := ⟨State.tx, State.setTx, fun _ => rfl, fun _ _ => rfl, fun _ _ => rfl⟩

def rxPart : Part RxUnit := ⟨State.rx, State.setRx, fun _ => rfl, fun _ _ => rfl, fun _ _ => rfl⟩

/-- From every state with the parameters `p` and the part `a`, the operation `m` does one and the same: it completes,
writing the part and the result alone, or is refused for one of the reasons `es`. -/
def RunsAt {α : Type} (P : Part α) (es : List Refusal) (m : State → Outcome) (p : Config.Params) (a : α) : Prop :=
  (∃ a' r, ∀ s : State, s.params = p → P.get s = a → m s = .next ((P.set s a').setResult r)) ∨
  ∃ e ∈ es, ∀ s : State, s.params = p → P.get s = a → m s = .refused e

/-- The operation reads the parameters and the part, and writes the part and the result. -/
def RunsOn {α : Type} (P : Part α) (es : List Refusal) (m : State → Outcome) : Prop := ∀ p a, RunsAt P es m p a

/-- A change of the state outside a part: an operation on the part neither sees it nor undoes it. -/
def Part.Ignores {α : Type} (P : Part α) (g : State → State) : Prop :=
  ∀ s, (g s).params = s.params ∧ P.get (g s) = P.get s ∧
    ∀ a r, (P.set (g s) a).setResult r = g ((P.set s a).setResult r)

section
variable {α : Type} {P : Part α} {es : List Refusal} {m m' : State → Outcome}
variable {p : Config.Params} {a : α} {s t : State}

/-! #### How an operation comes to run on a part -/

theorem runsAt_next (a' : α) (r : Result)
    (h : ∀ s : State, s.params = p → P.get s = a → m s = .next ((P.set s a').setResult r)) : RunsAt P es m p a :=
  .inl ⟨a', r, h⟩

theorem runsAt_refused {e : Refusal} (he : e ∈ es)
    (h : ∀ s : State, s.params = p → P.get s = a → m s = .refused e) : RunsAt P es m p a := .inr ⟨e, he, h⟩

theorem RunsAt.congr (hm : RunsAt P es m p a) (h : ∀ s : State, s.params = p → P.get s = a → m' s = m s) :
    RunsAt P es m' p a := by
  obtain ⟨a', r, hn⟩ | ⟨e, he, hr⟩ := hm
  · exact runsAt_next a' r fun s hp ha => (h s hp ha).trans (hn s hp ha)
  · exact runsAt_refused he fun s hp ha => (h s hp ha).trans (hr s hp ha)

theorem runsOn_refused {e : Refusal} (he : e ∈ es) : RunsOn P es fun _ => .refused e :=
  fun _ _ => runsAt_refused he fun _ _ _ => rfl

/-- Delivering what the parameters and the part determine. -/
theorem runsOn_deliver (f : Config.Params → α → Result) : RunsOn P es fun s => s.deliver (f s.params (P.get s)) :=
  fun p a => runsAt_next a (f p a) fun s hp ha => by subst hp ha; rw [P.set_get]; rfl

/-- Delivering what the operands alone determine. -/
theorem runsOn_answer {r : Result} : RunsOn P es fun s => s.deliver r := runsOn_deliver fun _ _ => r

/-- A choice that the operands alone decide. -/
theorem runsOn_ite {c : Prop} [Decidable c] (h : c → RunsOn P es m) (h' : ¬ c → RunsOn P es m') :
    RunsOn P es fun s => if c then m s else m' s := by
  by_cases hc : c
  · simpa only [if_pos hc] using h hc
  · simpa only [if_neg hc] using h' hc

/-- A check of the operands, then a result that they determine. -/
theorem runsOn_check {c : Prop} {_ : Decidable c} {e : Refusal} {r : Result} :
    RunsOn P [e] fun s => if c then .refused e else s.deliver r :=
  runsOn_ite (fun _ => runsOn_refused (List.mem_singleton.mpr rfl)) fun _ => runsOn_answer

/-- The same operation and the same reasons under other names. -/
theorem RunsOn.of_eq {es' : List Refusal} (hm : RunsOn P es m) (hes : es' = es) (h : ∀ s, m' s = m s) :
    RunsOn P es' m' := by
  obtain rfl : m' = m := funext h
  exact hes ▸ hm

/-- A pure operation runs on any part, which it leaves as it is. -/
theorem RunsOn.of_noPart (hm : RunsOn noPart es m) : RunsOn P es m := by
  intro p a
  obtain ⟨_, r, hn⟩ | ⟨e, he, hr⟩ := hm p ()
  · exact runsAt_next a r fun s hp ha => by subst ha; rw [P.set_get]; exact hn s hp rfl
  · exact runsAt_refused he fun s hp _ => hr s hp rfl

/-! #### What follows of an operation that runs on a part -/

theorem RunsOn.completes_or_refused (hm : RunsOn P es m) (s : State) :
    (∃ t, m s = .next t) ∨ ∃ e ∈ es, m s = .refused e := by
  obtain ⟨_, _, hn⟩ | ⟨e, he, hr⟩ := hm s.params (P.get s)
  · exact .inl ⟨_, hn s rfl rfl⟩
  · exact .inr ⟨e, he, hr s rfl rfl⟩

theorem RunsOn.next (hm : RunsOn P es m) (h : m s = .next t) :
    ∃ a r, t = (P.set s a).setResult r ∧
      ∀ s' : State, s'.params = s.params → P.get s' = P.get s → m s' = .next ((P.set s' a).setResult r) := by
  obtain ⟨a, r, hn⟩ | ⟨e, -, hr⟩ := hm s.params (P.get s)
  · rw [hn s rfl rfl] at h; cases h; exact ⟨a, r, rfl, hn⟩
  · rw [hr s rfl rfl] at h; cases h

theorem RunsOn.params_eq (hm : RunsOn P es m) (h : m s = .next t) : t.params = s.params := by
  obtain ⟨a, r, rfl, -⟩ := hm.next h; exact P.set_params s a

theorem RunsOn.requests_eq (hm : RunsOn P es m) (h : m s = .next t) : t.requests = s.requests := by
  obtain ⟨a, r, rfl, -⟩ := hm.next h; exact P.set_requests s a

theorem RunsOn.commutes (hm : RunsOn P es m) {g : State → State} (hg : P.Ignores g) (h : m s = .next t) :
    m (g s) = .next (g t) := by
  obtain ⟨a, r, rfl, hn⟩ := hm.next h
  obtain ⟨hparams, hget, hset⟩ := hg s
  rw [hn (g s) hparams hget, hset]

end

theorem txPart_ignores_setRx (rx : RxUnit) : txPart.Ignores (·.setRx rx) := fun _ => ⟨rfl, rfl, fun _ _ => rfl⟩

theorem rxPart_ignores_setTx (u : TxUnit) : rxPart.Ignores (·.setTx u) := fun _ => ⟨rfl, rfl, fun _ _ => rfl⟩

/-! ### The refusals of a class outside the catalogue -/

/-- The table of R91 and the model's `classOf` know the same message_types. -/
theorem catalogue_any_eq (sel : BitVec 8) : (catalogue.any fun r => r.mt == sel.toNat) = (classOf sel).isSome := by
  unfold classOf
  generalize sel.toNat = n
  split
  case h_22 => simp_all [catalogue, eq_comm (b := n)]
  all_goals rfl

theorem cmd_of_cmdWord (c : BitVec 6) (sel : BitVec 8) : (cmdWord c sel).extractLsb' 8 6 = c := cmdOf_cmdWord c sel

theorem sel_of_cmdWord (c : BitVec 6) (sel : BitVec 8) : (cmdWord c sel).extractLsb' 0 8 = sel := selOf_cmdWord c sel

theorem refusals_wireId (sel : BitVec 8) (nodeType nodeId : BitVec 32) :
    refusals (.wireId sel nodeType nodeId) = if (classOf sel).isSome then [] else [.unknownClass] := by
  simp [refusals, encode, cmdRequest, cmd_of_cmdWord, sel_of_cmdWord, catalogue_any_eq]

theorem refusals_txLoad (sel : BitVec 8) (body : Bytes) (nodeType : BitVec 6) (nodeId : BitVec 12) :
    refusals (.txLoad sel body nodeType nodeId) =
      if (classOf sel).isSome then [.badBodyLength] else [.unknownClass] := by
  simp [refusals, encode, cmdRequest, cmd_of_cmdWord, sel_of_cmdWord, catalogue_any_eq]

/-! ### The operations of neither unit -/

theorem execWireId_runsOn {sel : BitVec 8} {nodeType nodeId : BitVec 32} :
    RunsOn noPart (refusals (.wireId sel nodeType nodeId)) (execWireId sel nodeType nodeId) := by
  rw [refusals_wireId]
  unfold execWireId
  cases classOf sel with
  | none => exact runsOn_refused (by simp)
  | some c => exact runsOn_deliver fun p _ => .u32 (wireId p c nodeType nodeId)

theorem execPutBits_runsOn {B : Bytes} {o w v : Nat} :
    RunsOn noPart [.badWidth, .outsideBuffer] (execPutBits B o w v) :=
  runsOn_ite (fun _ => runsOn_refused (by simp)) fun _ =>
    runsOn_ite (fun _ => runsOn_refused (by simp)) fun _ => runsOn_answer

theorem execGetBits_runsOn {B : Bytes} {o w : Nat} :
    RunsOn noPart [.badWidth, .outsideBuffer] (execGetBits B o w) :=
  runsOn_ite (fun _ => runsOn_refused (by simp)) fun _ =>
    runsOn_ite (fun _ => runsOn_refused (by simp)) fun _ => runsOn_answer

/-- No body is shorter than the empty one (42_message_codecs.md R165). -/
theorem execUnpackPreUnixTime_runsOn {B : Bytes} : RunsOn noPart [] (execUnpackPreUnixTime B) :=
  runsOn_ite (m := fun _ => .refused .bodyTooShort) (fun h => absurd h (Nat.not_lt_zero B.length))
    fun _ => runsOn_answer

/-! ### The operations of the TX unit -/

theorem txEmit_runsAt {es : List Refusal} {p : Config.Params} {t : TxUnit} (pre : Bytes) (count : Nat) (tail : Byte)
    (offset' : Fin 65) (toggle' : Bool) :
    RunsAt txPart es (fun s => txEmit s pre count tail offset' toggle') p t :=
  runsAt_next { t with offset := offset', toggle := toggle' }
    (.frame t.id (pre ++ t.buf.readBytes t.offset count ++ [tail]))
    fun s _ (htx : s.tx = t) => by subst htx; rfl

/-- `TX_NEXT` (44_tx_encoder.md R242) at its five cases. -/
theorem execTxNext_runsOn : RunsOn txPart [.nothingToSend] execTxNext := by
  intro p t
  by_cases hmore : t.offset < t.len
  · by_cases hsingle : t.offset = 0 ∧ t.len.val ≤ 7
    · exact (txEmit_runsAt [] t.len (txTail true true false) t.len t.toggle).congr
        fun s _ (htx : s.tx = t) => by subst htx; simp only [execTxNext, if_pos hmore, if_pos hsingle]
    by_cases hfirst : t.offset = 0
    · exact (txEmit_runsAt (crcPrefix t.crc) 5 (txTail true false false) 5 (!t.toggle)).congr
        fun s _ (htx : s.tx = t) => by
          subst htx; simp only [execTxNext, if_pos hmore, if_neg hsingle, if_pos hfirst]
    by_cases hlast : t.len.val ≤ t.offset.val + 7
    · exact (txEmit_runsAt [] (t.len - t.offset) (txTail false true t.toggle) t.len (!t.toggle)).congr
        fun s _ (htx : s.tx = t) => by
          subst htx; simp only [execTxNext, if_pos hmore, if_neg hsingle, if_neg hfirst, dif_pos hlast]
    · exact (txEmit_runsAt [] 7 (txTail false false t.toggle) ⟨t.offset + 7, by omega⟩ (!t.toggle)).congr
        fun s _ (htx : s.tx = t) => by
          subst htx; simp only [execTxNext, if_pos hmore, if_neg hsingle, if_neg hfirst, dif_neg hlast]
  · exact runsAt_refused (List.mem_singleton.mpr rfl)
      fun s _ (htx : s.tx = t) => by subst htx; simp only [execTxNext, if_neg hmore]

theorem execTxLoad_runsOn {sel : BitVec 8} {body : Bytes} {nodeType : BitVec 6} {nodeId : BitVec 12} :
    RunsOn txPart (refusals (.txLoad sel body nodeType nodeId)) (execTxLoad sel body nodeType nodeId) := by
  rw [refusals_txLoad]
  unfold execTxLoad
  cases classOf sel with
  | none => exact runsOn_refused (by simp)
  | some c =>
    refine runsOn_ite (fun _ => runsOn_refused (by simp)) fun _ p t => runsAt_next
      { id := (wireId p c (nodeType.setWidth 32) (nodeId.setWidth 32)).setWidth 29
        buf := t.buf.writeBytes 0 body
        len := ⟨sizeBytes c, sizeBytes_lt c⟩
        crc := crc16 body
        offset := 0
        toggle := false } .nothing ?_
    rintro s rfl rfl
    rfl

/-! ### The operations of the RX unit -/

section
variable {es : List Refusal} {p : Config.Params} {rx : RxUnit}

theorem deliverRx_runsAt (rx' : RxUnit) (a : Option ReceivedMessage) : RunsAt rxPart es (·.deliverRx rx' a) p rx :=
  runsAt_next rx' (.received a) fun _ _ _ => rfl

/-- The end of a transfer whose last bytes have just been stored. -/
theorem complete_setRx_runsAt (rx' : RxUnit) (k : Fin 8) :
    RunsAt rxPart es (fun s => complete (s.setRx rx') k) p rx :=
  runsAt_next (clearSlot rx' k) _ fun s hp _ => by rw [complete_eq, setRx_params, setRx_rx, hp]; rfl

theorem handleOwn_runsAt (k : Fin 8) (d : Bytes) (tail : Byte) : RunsAt rxPart es (handleOwn · k d tail) p rx := by
  by_cases hpoliced : tailTog tail ≠ expectedToggle p (slotAt rx k).len ∨ tailSot tail = true
  · exact (deliverRx_runsAt rx none).congr
      fun s hp (hrx : s.rx = rx) => by subst hp hrx; simp only [handleOwn, if_pos hpoliced]
  by_cases hfits : (slotAt rx k).len.val + (d.length - 1) ≤ 256
  · by_cases hends : tailEot tail = true
    · exact (complete_setRx_runsAt (setSlot rx k (appended (slotAt rx k) d hfits)) k).congr
        fun s hp (hrx : s.rx = rx) => by
          subst hp hrx; simp only [handleOwn, if_neg hpoliced, dif_pos hfits, if_pos hends]
    · exact (deliverRx_runsAt (setSlot rx k (appended (slotAt rx k) d hfits)) none).congr
        fun s hp (hrx : s.rx = rx) => by
          subst hp hrx; simp only [handleOwn, if_neg hpoliced, dif_pos hfits, if_neg hends]
  · exact (deliverRx_runsAt (clearSlot rx k) none).congr
      fun s hp (hrx : s.rx = rx) => by subst hp hrx; simp only [handleOwn, if_neg hpoliced, dif_neg hfits]

theorem handle_runsAt (k : Fin 8) (id : BitVec 29) (d : Bytes) (tail : Byte) (ts : BitVec 64) (h : d.length ≤ 8) :
    RunsAt rxPart es (handle · k id d tail ts h) p rx := by
  by_cases hocc : (slotAt rx k).occ = true
  · by_cases hid : (slotAt rx k).id = id
    · exact (handleOwn_runsAt k d tail).congr
        fun s _ (hrx : s.rx = rx) => by subst hrx; simp only [handle, if_pos hocc, if_pos hid]
    · exact (deliverRx_runsAt (handleEmpty (clearSlot rx k) k id d tail ts h) none).congr
        fun s _ (hrx : s.rx = rx) => by subst hrx; simp only [handle, if_pos hocc, if_neg hid]
  · exact (deliverRx_runsAt (handleEmpty rx k id d tail ts h) none).congr
      fun s _ (hrx : s.rx = rx) => by subst hrx; simp only [handle, if_neg hocc]

theorem receiveSingle_runsAt (id : BitVec 29) (d : Bytes) (tail : Byte) :
    RunsAt rxPart es (receiveSingle · id d tail) p rx :=
  runsAt_next rx _ fun s hp (hrx : s.rx = rx) => by rw [receiveSingle_eq, hp, hrx]; rfl

end

/-- `RX_FRAME` (45_rx_decoder.md R261) reads and writes the slots alone, and is refused for its length alone. -/
theorem receiveFrame_runsOn {idIn : BitVec 32} {d : Bytes} {ts : BitVec 64} :
    RunsOn rxPart [.frameTooLong] (receiveFrame idIn d ts) := by
  intro p rx
  by_cases hlen : d.length ≤ 8
  · by_cases hlog : messageTypeOfId (idIn.setWidth 29) = Config.mtLog
    · exact (deliverRx_runsAt rx none).congr
        fun s _ (hrx : s.rx = rx) => by subst hrx; simp only [receiveFrame, dif_pos hlen, if_pos hlog]
    cases hlast : d.getLast? with
    | none =>
      exact (deliverRx_runsAt rx none).congr
        fun s _ (hrx : s.rx = rx) => by subst hrx; simp only [receiveFrame, dif_pos hlen, if_neg hlog, hlast]
    | some tail =>
      by_cases hsingle : (tailSot tail && tailEot tail) = true
      · exact (receiveSingle_runsAt (idIn.setWidth 29) d tail).congr
          fun s _ _ => by simp only [receiveFrame, dif_pos hlen, if_neg hlog, hlast, if_pos hsingle]
      · exact (handle_runsAt (lookup rx (idIn.setWidth 29)) (idIn.setWidth 29) d tail ts hlen).congr
          fun s _ (hrx : s.rx = rx) => by
            subst hrx; simp only [receiveFrame, dif_pos hlen, if_neg hlog, hlast, if_neg hsingle]
  · exact runsAt_refused (List.mem_singleton.mpr rfl) fun s _ _ => by simp only [receiveFrame, dif_neg hlen]

theorem execRxReset_runsOn : RunsOn rxPart [] execRxReset := fun _ rx =>
  runsAt_next (clearAll rx) .nothing fun s _ (hrx : s.rx = rx) => by subst hrx; rfl

/-! ### Every operation -/

/-- What an operation reads and writes, and what it can be refused for, by the unit it belongs to. -/
theorem exec_runsOn (i : Instr) :
    RunsOn noPart (refusals i) (exec i) ∨
    (isTx i = true ∧ RunsOn txPart (refusals i) (exec i)) ∨
    (isRx i = true ∧ RunsOn rxPart (refusals i) (exec i)) := by
  cases i with
  | putBits => exact .inl execPutBits_runsOn
  | getBits => exact .inl execGetBits_runsOn
  | wireId => exact .inl execWireId_runsOn
  | decode sel B => exact .inl (runsOn_deliver fun p _ => .decoded (decodeMessage p sel B))
  | unpackPreUnixTime => exact .inl execUnpackPreUnixTime_runsOn
  | makeId | splitId | crc16 | sizeOf
  | packReset | packPreUnixTime | packDataTransfer | packNodeStatus | packVlStatus | packAmpControl
  | packPayloadEpsOutputOverwrite | packAck | packAmpOverwrite | packAirBrakesControl | packRocketState
  | packAmpOutStatus | packEpsOutStatus => exact .inl runsOn_answer
  | putU16 | putU24 | putU32 | putU56 | putU64
  | getU16 | getU24 | getU32 | getU56 | getU64
  | packUnixTime | packAmpStatus | packPayloadEpsStatus | packAmpResetOutput | packBaroMeasurement
  | packImuMeasurement | packBrightnessMeasurement | packMagMeasurement | packOzysMeasurement | packIcarusStatus
  | unpackReset | unpackUnixTime | unpackDataTransfer | unpackNodeStatus | unpackAmpStatus | unpackPayloadEpsStatus
  | unpackVlStatus | unpackAmpControl | unpackPayloadEpsOutputOverwrite | unpackAck | unpackAmpOverwrite
  | unpackAmpResetOutput | unpackAirBrakesControl | unpackBaroMeasurement | unpackImuMeasurement
  | unpackBrightnessMeasurement | unpackRocketState | unpackMagMeasurement | unpackOzysMeasurement
  | unpackIcarusStatus | unpackAmpOutStatus | unpackEpsOutStatus =>
    exact .inl (runsOn_check.of_eq rfl fun _ => rfl)
  | txLoad => exact .inr (.inl ⟨rfl, execTxLoad_runsOn⟩)
  | txHasNext => exact .inr (.inl ⟨rfl, runsOn_deliver fun _ t => .hasNext (hasNext t)⟩)
  | txNext => exact .inr (.inl ⟨rfl, execTxNext_runsOn⟩)
  | rxReset => exact .inr (.inr ⟨rfl, execRxReset_runsOn⟩)
  | rxFrame
  | frameSingle | frameSingleBadtog | frameFirst | frameFirstBadtog | frameMiddle | frameLast
  | idReset | idUnixTime | idPreUnixTime | idDataTransfer | idNodeStatus | idAmpStatus | idPayloadEpsStatus
  | idVlStatus | idAmpControl | idPayloadEpsOutputOverwrite | idAck | idAmpOverwrite | idAmpResetOutput
  | idAirBrakesControl | idBaroMeasurement | idImuMeasurement | idBrightnessMeasurement | idRocketState
  | idMagMeasurement | idOzysMeasurement | idIcarusStatus | idLogChannel =>
    exact .inr (.inr ⟨rfl, receiveFrame_runsOn.of_eq rfl fun _ => rfl⟩)

theorem exec_runsOn_txPart {i : Instr} (hRx : isRx i = false) : RunsOn txPart (refusals i) (exec i) := by
  obtain h | ⟨-, h⟩ | ⟨hRx', -⟩ := exec_runsOn i
  · exact h.of_noPart
  · exact h
  · rw [hRx] at hRx'; contradiction

theorem exec_runsOn_rxPart {i : Instr} (hTx : isTx i = false) : RunsOn rxPart (refusals i) (exec i) := by
  obtain h | ⟨hTx', -⟩ | ⟨-, h⟩ := exec_runsOn i
  · exact h.of_noPart
  · rw [hTx] at hTx'; contradiction
  · exact h

theorem exec_completes_or_refused (i : Instr) (s : State) :
    (∃ t, exec i s = .next t) ∨ ∃ e ∈ refusals i, exec i s = .refused e := by
  obtain h | ⟨-, h⟩ | ⟨-, h⟩ := exec_runsOn i <;> exact h.completes_or_refused s

theorem exec_params_eq {i : Instr} {s t : State} (ht : exec i s = .next t) : t.params = s.params := by
  obtain h | ⟨-, h⟩ | ⟨-, h⟩ := exec_runsOn i <;> exact h.params_eq ht

theorem exec_requests_eq {i : Instr} {s t : State} (ht : exec i s = .next t) : t.requests = s.requests := by
  obtain h | ⟨-, h⟩ | ⟨-, h⟩ := exec_runsOn i <;> exact h.requests_eq ht

/-- No rule names the refusal of an operation not modelled. -/
theorem notModelled_not_mem_refusals (i : Instr) (m : String) : .notModelled m ∉ refusals i := by
  unfold refusals
  split
  · dsimp only
    split_ifs <;> simp
  · simp
  · simp

/-! ### The obligations -/

theorem step_completes_or_refused (s : State) :
    (∃ t, step s = .next t) ∨ ∃ e, step s = .refused e ∧ ∀ m, e ≠ .notModelled m := by
  cases hs : s.requests with
  | nil => exact .inl ⟨s, step_of_no_request hs⟩
  | cons r rest =>
    cases hr : decode r with
    | error e => exact .inr ⟨_, step_of_decode_error hs hr, nofun⟩
    | ok i =>
      rw [step_of_decode_ok hs hr]
      obtain hnext | ⟨e, he, hrefused⟩ := exec_completes_or_refused i (s.setRequests rest)
      · exact .inl hnext
      · exact .inr ⟨e, hrefused, fun m hm => notModelled_not_mem_refusals i m (hm ▸ he)⟩

/-- Settles O56, by the part of the state each operation runs on; no step faults, for there is no fault to raise. -/
theorem noStepFaults : Obligations.NoStepFaults :=
  ⟨fun s => ⟨fun f => (nomatch f), step_completes_or_refused s⟩, exec_completes_or_refused⟩

/-- Settles O58: an operation outside a unit commutes with every change of that unit, and leaves it as it is. -/
theorem unitsIndependent : Obligations.UnitsIndependent := by
  intro i s t ht
  refine ⟨exec_params_eq ht, exec_requests_eq ht, fun hRx => ?_, fun hTx => ?_⟩
  · have hruns := exec_runsOn_txPart hRx
    refine ⟨?_, fun rx => hruns.commutes (txPart_ignores_setRx rx) ht⟩
    obtain ⟨u, r, rfl, -⟩ := hruns.next ht
    rfl
  · have hruns := exec_runsOn_rxPart hTx
    refine ⟨?_, fun u => hruns.commutes (rxPart_ignores_setTx u) ht⟩
    obtain ⟨rx, r, rfl, -⟩ := hruns.next ht
    rfl

/-- Settles O2, by the well-formed answers of the decoder's parts. -/
theorem stepRunsDecoded : Obligations.StepRunsDecoded :=
  fun _ _ _ _ hs hr => ⟨step_of_decode_ok hs hr, wellFormed_of_decode hr⟩

/-- Settles O3. -/
theorem stepWithoutOperation : Obligations.StepWithoutOperation :=
  ⟨fun _ _ _ _ hs hr => step_of_decode_error hs hr, fun _ hs => step_of_no_request hs⟩

end Sys2Proof.Proofs
end

section
/-! SUPPORT. The family of 10_state.md: the invariant of the block, and that nothing the spec leaves unspecified can be
seen. `Meaning` lists what an operation can be, once; a claim about every step is then one lemma per entry. -/

namespace Sys2Proof.Proofs

open Sys2Proof.Machine Sys2Proof.Claims

/-! ### What an operation can be -/

/-- The meanings of operations: one that runs on no unit, the three of the TX unit, and for the RX unit `RX_RESET` and
the arrival of a frame. -/
inductive Meaning : (State → Outcome) → Prop
  | pure {m : State → Outcome} {es : List Refusal} (hm : RunsOn noPart es m) : Meaning m
  | txLoad (sel : BitVec 8) (body : Bytes) (nodeType : BitVec 6) (nodeId : BitVec 12) :
      Meaning (execTxLoad sel body nodeType nodeId)
  | txHasNext : Meaning execTxHasNext
  | txNext : Meaning execTxNext
  | rxReset : Meaning execRxReset
  | rxFrame (idIn : BitVec 32) (d : Bytes) (ts : BitVec 64) : Meaning (receiveFrame idIn d ts)

theorem meaning_of_isTx {i : Instr} (h : isTx i = true) : Meaning (exec i) := by
  unfold isTx at h
  split at h
  · exact .txLoad ..
  · exact .txHasNext
  · exact .txNext
  · contradiction

theorem meaning_of_isRx {i : Instr} (h : isRx i = true) : Meaning (exec i) := by
  cases i with
  | rxReset => exact .rxReset
  | rxFrame
  | frameSingle | frameSingleBadtog | frameFirst | frameFirstBadtog | frameMiddle | frameLast
  | idReset | idUnixTime | idPreUnixTime | idDataTransfer | idNodeStatus | idAmpStatus | idPayloadEpsStatus
  | idVlStatus | idAmpControl | idPayloadEpsOutputOverwrite | idAck | idAmpOverwrite | idAmpResetOutput
  | idAirBrakesControl | idBaroMeasurement | idImuMeasurement | idBrightnessMeasurement | idRocketState
  | idMagMeasurement | idOzysMeasurement | idIcarusStatus | idLogChannel => exact .rxFrame ..
  | _ => simp [isRx, encode, cmdRequest, cmd_of_cmdWord] at h

theorem exec_meaning (i : Instr) : Meaning (exec i) := by
  obtain h | ⟨hTx, -⟩ | ⟨hRx, -⟩ := exec_runsOn i
  · exact .pure h
  · exact meaning_of_isTx hTx
  · exact meaning_of_isRx hRx

theorem exec_runsOn_noPart {i : Instr} (hTx : isTx i = false) (hRx : isRx i = false) :
    RunsOn noPart (refusals i) (exec i) := by
  obtain h | ⟨hTx', -⟩ | ⟨hRx', -⟩ := exec_runsOn i
  · exact h
  · rw [hTx] at hTx'; contradiction
  · rw [hRx] at hRx'; contradiction

/-! ### The invariant of the TX unit (R36 (c) to (e), R21) -/

theorem txInv_atReset : TxUnit.atReset.Inv := by
  unfold TxUnit.Inv; decide

/-- What `TX_LOAD` leaves (44_tx_encoder.md R240). -/
theorem txInv_loaded {t : TxUnit} (ht : t.Inv) {body : Bytes} {len : Fin 65} (hbody : body.length = len.val)
    (id : BitVec 29) :
    TxUnit.Inv { id, buf := t.buf.writeBytes 0 body, len, crc := crc16 body, offset := 0, toggle := false } := by
  obtain ⟨hwf, -⟩ := ht
  refine ⟨wf_writeBytes hwf ?_, Fin.zero_le _, fun _ => rfl, fun _ => ⟨rfl, .inl rfl⟩, fun _ => .inl rfl,
    fun _ hoffset => absurd hoffset (lt_irrefl 0), fun _ => ?_⟩
  · have := len.isLt
    show 0 + body.length ≤ 64
    omega
  · show crc16 ((t.buf.writeBytes 0 body).readBytes 0 len.val) = crc16 body
    rw [← hbody, readBytes_writeBytes]

/-- After a SINGLE or a LAST frame (R243, R245): `tx_offset` stands at the end of the body. -/
theorem txInv_atEnd {t : TxUnit} (ht : t.Inv) {g : Bool} (hpos : 0 < t.len.val) (hg : t.len.val ≤ 7 → g = false) :
    TxUnit.Inv { t with offset := t.len, toggle := g } := by
  obtain ⟨hwf, -, -, -, -, -, hcrc⟩ := ht
  exact ⟨hwf, le_refl _, fun (h : t.len = 0) => absurd (congrArg Fin.val h) (Nat.ne_of_gt hpos),
    fun h => ⟨hg h, .inr rfl⟩, fun _ => .inr (.inl rfl), fun _ _ h => absurd h (lt_irrefl _), hcrc⟩

theorem toggle_at_start {t : TxUnit} (ht : t.Inv) (hstart : t.offset = 0) : t.toggle = false := by
  obtain ⟨-, -, htoggle, -⟩ := ht
  exact htoggle hstart

/-- Only a body of more than one frame has a place in its middle. -/
theorem len_of_midway {t : TxUnit} (ht : t.Inv) (hstarted : t.offset ≠ 0) (hmore : t.offset.val < t.len.val) :
    8 ≤ t.len.val := by
  obtain ⟨-, -, -, hsingle, -⟩ := ht
  by_contra hshort
  obtain ⟨-, h | h⟩ := hsingle (by omega)
  · exact hstarted h
  · exact absurd (congrArg Fin.val h) (by omega)

/-- After a FIRST frame (R244). -/
theorem txInv_first {t : TxUnit} (ht : t.Inv) (hlen : 8 ≤ t.len.val) :
    TxUnit.Inv { t with offset := 5, toggle := true } := by
  obtain ⟨hwf, -, -, -, -, -, hcrc⟩ := ht
  have hle : (5 : Fin 65) ≤ t.len := Fin.le_def.mpr (show 5 ≤ t.len.val by omega)
  exact ⟨hwf, hle, fun (h : (5 : Fin 65) = 0) => absurd h (by decide), fun (h : t.len.val ≤ 7) => absurd h (by omega),
    fun _ => .inr (.inr ⟨le_refl 5, rfl⟩), fun _ _ _ => by simp, hcrc⟩

/-- The toggle of R36 (e) alternates from one frame to the next. -/
theorem toggle_succ (n : Nat) : (!(n % 2 == 0)) = ((n + 1) % 2 == 0) := by
  rcases Nat.mod_two_eq_zero_or_one n with h | h <;> simp [h, Nat.add_mod]

/-- After a MIDDLE frame (R246): seven bytes further, the toggle flipped. -/
theorem txInv_middle {t : TxUnit} (ht : t.Inv) (hstarted : t.offset ≠ 0) (hmore : t.offset.val + 7 < t.len.val) :
    TxUnit.Inv { t with offset := ⟨t.offset.val + 7, by omega⟩, toggle := !t.toggle } := by
  have hlen := len_of_midway ht hstarted (by omega)
  obtain ⟨hwf, -, -, -, hplace, htoggle, hcrc⟩ := ht
  have hbefore : t.offset < t.len := Fin.lt_def.mpr (by omega)
  obtain ⟨hfive, hmod⟩ : 5 ≤ t.offset.val ∧ (t.offset.val - 5) % 7 = 0 := by
    obtain h | h | h := hplace hlen
    · exact absurd h hstarted
    · exact absurd h (ne_of_lt hbefore)
    · exact h
  have hseven : t.offset.val + 7 - 5 = t.offset.val - 5 + 7 := by omega
  refine ⟨hwf, Fin.le_def.mpr (by dsimp only; omega), fun h => ?_, fun (h : t.len.val ≤ 7) => absurd h (by omega),
    fun _ => .inr (.inr ⟨?_, ?_⟩), fun _ _ _ => ?_, hcrc⟩
  · exact absurd (congrArg Fin.val h) (Nat.succ_ne_zero _)
  · show 5 ≤ t.offset.val + 7
    omega
  · show (t.offset.val + 7 - 5) % 7 = 0
    rw [hseven, Nat.add_mod_right, hmod]
  · show (!t.toggle) = ((t.offset.val + 7 - 5) / 7 % 2 == 0)
    rw [htoggle hlen (by omega) hbefore, hseven, Nat.add_div_right _ (by decide), toggle_succ]

/-! ### The invariant of the RX unit (R36 (a), (b)) -/

theorem slotInv_clear {sl : Slot} (h : sl.Inv) : sl.clear.Inv := ⟨h.1, nofun⟩

/-- A slot opened by a frame of 4 to 8 data bytes (45_rx_decoder.md R269). -/
theorem slotInv_openedSlot {old : Slot} (hold : old.Inv) {id : BitVec 29} {d : Bytes} {ts : BitVec 64}
    (hmin : 4 ≤ d.length) (h : d.length ≤ 8) : (openedSlot old id d ts h).Inv := by
  refine ⟨wf_writeBytes hold.1 ?_, fun _ => ?_⟩
  · simp only [frameBody, List.length_drop, List.length_dropLast, Config.slotCap]
    omega
  · show 1 ≤ d.length - 3
    omega

theorem slotInv_appended {sl : Slot} (hsl : sl.Inv) {d : Bytes} (h : sl.len.val + (d.length - 1) ≤ 256) :
    (appended sl d h).Inv := by
  obtain ⟨hwf, hlen⟩ := hsl
  exact ⟨wf_writeBytes hwf (by simpa [frameBody] using h), fun hocc => Nat.le_add_right_of_le (hlen hocc)⟩

theorem rxInv_of_empty {rx : RxUnit} (hslots : ∀ k, (slotAt rx k).Inv) (hempty : ∀ k, (slotAt rx k).occ = false) :
    RxUnit.Inv rx :=
  ⟨hslots, fun j _ hj => absurd hj (by simp [hempty j])⟩

theorem occ_atReset (k : Fin 8) : (slotAt RxUnit.atReset k).occ = false := by rw [atReset_get]; rfl

theorem rxInv_atReset : RxUnit.Inv RxUnit.atReset :=
  rxInv_of_empty (fun k => by rw [atReset_get]; exact ⟨wf_atReset _, nofun⟩) occ_atReset

/-- A slot replaced, with an identifier that no other slot holds. -/
theorem rxInv_setSlot {rx : RxUnit} (hrx : RxUnit.Inv rx) {k : Fin 8} {sl : Slot} (hsl : sl.Inv)
    (hid : sl.occ = true → ∀ j, j ≠ k → holds rx j sl.id = false) : RxUnit.Inv (setSlot rx k sl) := by
  obtain ⟨hslots, hdistinct⟩ := hrx
  have hother : sl.occ = true → ∀ j, j ≠ k → (slotAt rx j).occ = true → (slotAt rx j).id ≠ sl.id :=
    fun hocc j hj hjocc heq => by simpa [(holds_iff rx j sl.id).mpr ⟨hjocc, heq⟩] using hid hocc j hj
  constructor
  · intro j
    rw [setSlot_get]
    split
    · exact hsl
    · exact hslots j
  · intro i j hi hj hij
    by_cases hik : i = k <;> by_cases hjk : j = k
    · rw [hik, hjk]
    · subst hik
      rw [setSlot_get_self] at hi hij
      rw [setSlot_get_of_ne _ _ hjk] at hj hij
      exact absurd hij.symm (hother hi j hjk hj)
    · subst hjk
      rw [setSlot_get_self] at hj hij
      rw [setSlot_get_of_ne _ _ hik] at hi hij
      exact absurd hij (hother hj i hik hi)
    · rw [setSlot_get_of_ne _ _ hik] at hi hij
      rw [setSlot_get_of_ne _ _ hjk] at hj hij
      exact hdistinct i j hi hj hij

theorem rxInv_clearSlot {rx : RxUnit} (hrx : RxUnit.Inv rx) (k : Fin 8) : RxUnit.Inv (clearSlot rx k) :=
  rxInv_setSlot hrx (slotInv_clear (hrx.1 k)) nofun

theorem rxInv_clearAll {rx : RxUnit} (hrx : RxUnit.Inv rx) : RxUnit.Inv (clearAll rx) :=
  rxInv_of_empty (fun k => by rw [clearAll_get]; exact slotInv_clear (hrx.1 k)) fun k => by simp

/-- A slot that grows keeps its identifier. -/
theorem rxInv_appended {rx : RxUnit} (hrx : RxUnit.Inv rx) {k : Fin 8} {d : Bytes}
    (h : (slotAt rx k).len.val + (d.length - 1) ≤ 256) : RxUnit.Inv (setSlot rx k (appended (slotAt rx k) d h)) := by
  refine rxInv_setSlot hrx (slotInv_appended (hrx.1 k) h) fun hocc j hj => ?_
  rw [← Bool.not_eq_true, holds_iff]
  rintro ⟨hjocc, hjid⟩
  exact hj (hrx.2 j k hjocc hocc hjid)

theorem holds_clearSlot_of_not_holds {rx : RxUnit} {id : BitVec 29} {j k : Fin 8} (h : holds rx j id = false) :
    holds (clearSlot rx k) j id = false := by
  rw [← Bool.not_eq_true, holds_iff] at h ⊢
  rw [clearSlot_get]
  split
  · simp
  · exact h

/-- A frame of an identifier that no slot holds, at an empty slot (R269, R270). -/
theorem rxInv_handleEmpty {rx : RxUnit} (hrx : RxUnit.Inv rx) {id : BitVec 29} (hnone : ∀ j, holds rx j id = false)
    (k : Fin 8) (d : Bytes) (tail : Byte) (ts : BitVec 64) (h : d.length ≤ 8) :
    RxUnit.Inv (handleEmpty rx k id d tail ts h) := by
  obtain ⟨hopen, heq⟩ | ⟨-, heq⟩ := handleEmpty_cases rx k id d tail ts h <;> rw [heq]
  · obtain ⟨-, -, -, hmin⟩ := (isOpening_iff d tail).mp hopen
    exact rxInv_setSlot hrx (slotInv_openedSlot (hrx.1 k) hmin h) fun _ j _ => hnone j
  · exact hrx

/-! ### Every step keeps the invariant -/

/-- The operation keeps the invariant of the block. -/
def KeepsInv (m : State → Outcome) : Prop := ∀ s t : State, s.Inv → m s = .next t → t.Inv

theorem pure_keepsInv {m : State → Outcome} {es : List Refusal} (hm : RunsOn noPart es m) : KeepsInv m := by
  intro s t hs ht
  obtain ⟨_, r, rfl, -⟩ := hm.next ht
  exact hs

theorem execTxLoad_keepsInv (sel : BitVec 8) (body : Bytes) (nodeType : BitVec 6) (nodeId : BitVec 12) :
    KeepsInv (execTxLoad sel body nodeType nodeId) := by
  rintro s t ⟨htx, hrx⟩ ht
  unfold execTxLoad at ht
  split at ht
  · cases ht
  · split at ht
    · cases ht
    next hbody =>
      obtain rfl := deliverTx_next.mp ht
      exact ⟨txInv_loaded htx (not_not.mp hbody) _, hrx⟩

theorem execTxNext_keepsInv : KeepsInv execTxNext := by
  rintro s t ⟨htx, hrx⟩ ht
  obtain ⟨-, h⟩ | ⟨hmore, hstart, -, h⟩ | ⟨hstart, hlen, h⟩ | ⟨hstarted, hmore, -, h⟩ | ⟨hstarted, hmore, h⟩ :=
    execTxNext_cases s <;> rw [h] at ht
  · cases ht
  all_goals
    obtain rfl := txEmit_next.mp ht
    refine ⟨?_, hrx⟩
  · exact txInv_atEnd htx (by omega) fun _ => toggle_at_start htx hstart
  · have htoggle := toggle_at_start htx hstart
    simpa [htoggle] using txInv_first htx hlen
  · have hlen := len_of_midway htx hstarted hmore
    exact txInv_atEnd htx (by omega) (by omega)
  · exact txInv_middle htx hstarted hmore

theorem complete_keepsInv (k : Fin 8) : KeepsInv (complete · k) := by
  rintro s t ⟨htx, hrx⟩ ht
  dsimp only at ht
  rw [complete_eq] at ht
  cases ht
  exact ⟨htx, rxInv_clearSlot hrx k⟩

theorem handleOwn_keepsInv (k : Fin 8) (d : Bytes) (tail : Byte) : KeepsInv (handleOwn · k d tail) := by
  rintro s t ⟨htx, hrx⟩ ht
  dsimp only at ht
  obtain ⟨-, h⟩ | ⟨-, -, -, h⟩ | ⟨-, -, hfits, ⟨-, h⟩ | ⟨-, h⟩⟩ := handleOwn_cases s k d tail <;> rw [h] at ht
  · cases ht
    exact ⟨htx, hrx⟩
  · cases ht
    exact ⟨htx, rxInv_clearSlot hrx k⟩
  · refine complete_keepsInv k _ t ?_ ht
    exact ⟨htx, rxInv_appended hrx hfits⟩
  · cases ht
    exact ⟨htx, rxInv_appended hrx hfits⟩

/-- `LOOKUP` answers a slot that is empty or foreign only where no slot holds the identifier (R267). -/
theorem not_holds_of_lookup {rx : RxUnit} {id : BitVec 29}
    (h : (slotAt rx (lookup rx id)).occ = true → (slotAt rx (lookup rx id)).id ≠ id) : ∀ j, holds rx j id = false := by
  obtain hown | ⟨hnone, -⟩ | ⟨hnone, -⟩ := lookup_cases rx id
  · obtain ⟨hocc, hid⟩ := (holds_iff ..).mp hown
    exact absurd hid (h hocc)
  · exact hnone
  · exact hnone

theorem handle_lookup_keepsInv (id : BitVec 29) (d : Bytes) (tail : Byte) (ts : BitVec 64) (h : d.length ≤ 8) :
    KeepsInv fun s => handle s (lookup s.rx id) id d tail ts h := by
  rintro s t ⟨htx, hrx⟩ ht
  dsimp only at ht
  obtain ⟨hempty, heq⟩ | ⟨-, -, heq⟩ | ⟨-, hforeign, heq⟩ := handle_cases s (lookup s.rx id) id d tail ts h <;>
    rw [heq] at ht
  · cases ht
    exact ⟨htx, rxInv_handleEmpty hrx (not_holds_of_lookup (by simp [hempty])) ..⟩
  · exact handleOwn_keepsInv _ d tail s t ⟨htx, hrx⟩ ht
  · cases ht
    have hnone := not_holds_of_lookup fun _ => hforeign
    exact ⟨htx, rxInv_handleEmpty (rxInv_clearSlot hrx _) (fun j => holds_clearSlot_of_not_holds (hnone j)) ..⟩

theorem receiveFrame_keepsInv (idIn : BitVec 32) (d : Bytes) (ts : BitVec 64) : KeepsInv (receiveFrame idIn d ts) := by
  intro s t hs ht
  obtain ⟨-, h⟩ | ⟨-, -, h⟩ | ⟨-, hlen, tail, -, ⟨-, -, h⟩ | ⟨-, h⟩⟩ := receiveFrame_cases idIn d ts s <;> rw [h] at ht
  · cases ht
  · cases ht
    exact hs
  · rw [receiveSingle_eq] at ht
    cases ht
    exact hs
  · exact handle_lookup_keepsInv (idIn.setWidth 29) d tail ts hlen s t hs ht

theorem Meaning.keepsInv {m : State → Outcome} (hm : Meaning m) : KeepsInv m := by
  cases hm with
  | pure hm => exact pure_keepsInv hm
  | txLoad sel body nodeType nodeId => exact execTxLoad_keepsInv sel body nodeType nodeId
  | txHasNext => exact fun s t hs ht => by obtain rfl := deliver_next.mp ht; exact hs
  | txNext => exact execTxNext_keepsInv
  | rxReset => exact fun s t hs ht => by cases ht; exact ⟨hs.1, rxInv_clearAll hs.2⟩
  | rxFrame idIn d ts => exact receiveFrame_keepsInv idIn d ts

theorem step_keepsInv : KeepsInv step := by
  intro s t hs ht
  cases hreq : s.requests with
  | nil =>
    rw [step_of_no_request hreq] at ht
    cases ht
    exact hs
  | cons r rest =>
    cases hr : decode r with
    | error e =>
      rw [step_of_decode_error hreq hr] at ht
      cases ht
    | ok i =>
      rw [step_of_decode_ok hreq hr] at ht
      exact (exec_meaning i).keepsInv (s.setRequests rest) t hs ht

/-! ### States that differ in what the spec leaves unspecified -/

/-- What `Agree` asks of two TX units. -/
structure AgreeTx (a b : TxUnit) : Prop where
  len : a.len = b.len
  offset : a.offset = b.offset
  toggle : a.toggle = b.toggle
  transfer : a.offset.val < a.len.val → a.id = b.id ∧ a.crc = b.crc ∧ ∀ x < a.len.val, a.buf.read x = b.buf.read x

/-- What `Agree` asks of two slots. -/
structure AgreeSlot (a b : Slot) : Prop where
  occ : a.occ = b.occ
  id : a.occ = true → a.id = b.id
  ts : a.occ = true → a.ts = b.ts
  crc : a.occ = true → a.crc = b.crc
  len : a.occ = true → a.len = b.len
  buf : a.occ = true → ∀ x < a.len.val, a.buf.read x = b.buf.read x

/-- What `Agree` asks of two slot files. -/
def AgreeRx (a b : RxUnit) : Prop := ∀ k : Fin 8, AgreeSlot (slotAt a k) (slotAt b k)

theorem agreeSlot_iff {a b : Slot} :
    AgreeSlot a b ↔ a.occ = b.occ ∧ (a.occ = true →
      a.id = b.id ∧ a.ts = b.ts ∧ a.crc = b.crc ∧ a.len = b.len ∧ ∀ x < a.len.val, a.buf.read x = b.buf.read x) := by
  constructor
  · rintro ⟨hocc, hid, hts, hcrc, hlen, hbuf⟩
    exact ⟨hocc, fun ho => ⟨hid ho, hts ho, hcrc ho, hlen ho, hbuf ho⟩⟩
  · simp only [imp_and]
    rintro ⟨hocc, hid, hts, hcrc, hlen, hbuf⟩
    exact ⟨hocc, hid, hts, hcrc, hlen, hbuf⟩

theorem agree_iff {s t : State} :
    Agree s t ↔ s.params = t.params ∧ s.requests = t.requests ∧ s.result = t.result ∧ AgreeTx s.tx t.tx ∧
      AgreeRx s.rx t.rx := by
  simp only [Agree, AgreeRx, agreeSlot_iff]
  exact ⟨fun ⟨hp, hq, hr, hl, ho, hg, ht, hrx⟩ => ⟨hp, hq, hr, ⟨hl, ho, hg, ht⟩, hrx⟩,
    fun ⟨hp, hq, hr, ⟨hl, ho, hg, ht⟩, hrx⟩ => ⟨hp, hq, hr, hl, ho, hg, ht, hrx⟩⟩

/-! #### Registers and slots that agree -/

theorem readBytes_congr {size : Nat} {m m' : Memory size} {i n : Nat} (h : ∀ k < n, m.read (i + k) = m'.read (i + k)) :
    m.readBytes i n = m'.readBytes i n :=
  List.map_congr_left fun k hk => h k (List.mem_range.mp hk)

theorem agreeSlot_of_empty {a b : Slot} (ha : a.occ = false) (hb : b.occ = false) : AgreeSlot a b :=
  agreeSlot_iff.mpr ⟨ha.trans hb.symm, fun h => absurd h (by simp [ha])⟩

theorem agreeSlot_openedSlot (a b : Slot) (id : BitVec 29) (d : Bytes) (ts : BitVec 64) (h : d.length ≤ 8) :
    AgreeSlot (openedSlot a id d ts h) (openedSlot b id d ts h) where
  occ := rfl
  id _ := rfl
  ts _ := rfl
  crc _ := rfl
  len _ := rfl
  buf := fun _ x (hx : x < d.length - 3) => by
    have hin : 0 ≤ x ∧ x < 0 + ((frameBody d).drop 2).length := by simp [frameBody]; omega
    simp only [openedSlot, read_writeBytes, if_pos hin]

theorem agreeSlot_appended {a b : Slot} (hab : AgreeSlot a b) (hocc : a.occ = true) (d : Bytes)
    (ha : a.len.val + (d.length - 1) ≤ 256) (hb : b.len.val + (d.length - 1) ≤ 256) :
    AgreeSlot (appended a d ha) (appended b d hb) where
  occ := hab.occ
  id := hab.id
  ts := hab.ts
  crc := hab.crc
  len _ := by simp [appended, hab.len hocc]
  buf := fun _ x (hx : x < a.len.val + (d.length - 1)) => by
    simp only [appended, read_writeBytes, ← hab.len hocc]
    split
    · rfl
    next hout =>
      have : (frameBody d).length = d.length - 1 := by simp [frameBody]
      exact hab.buf hocc x (by omega)

section
variable {rx rx' : RxUnit}

theorem agreeRx_setSlot (h : AgreeRx rx rx') (k : Fin 8) {a b : Slot} (hab : AgreeSlot a b) :
    AgreeRx (setSlot rx k a) (setSlot rx' k b) := by
  intro j
  rw [setSlot_get, setSlot_get]
  split
  · exact hab
  · exact h j

theorem agreeRx_clearSlot (h : AgreeRx rx rx') (k : Fin 8) : AgreeRx (clearSlot rx k) (clearSlot rx' k) :=
  agreeRx_setSlot h k (agreeSlot_of_empty rfl rfl)

/-- Slot files with every slot cleared agree, whatever they held. -/
theorem agreeRx_clearAll (rx rx' : RxUnit) : AgreeRx (clearAll rx) (clearAll rx') := fun k =>
  agreeSlot_of_empty (by simp) (by simp)

theorem agreeRx_handleEmpty (h : AgreeRx rx rx') (k : Fin 8) (id : BitVec 29) (d : Bytes) (tail : Byte) (ts : BitVec 64)
    (hlen : d.length ≤ 8) : AgreeRx (handleEmpty rx k id d tail ts hlen) (handleEmpty rx' k id d tail ts hlen) := by
  unfold handleEmpty
  split
  · exact agreeRx_setSlot h k (agreeSlot_openedSlot ..)
  · exact h

theorem holds_congr (h : AgreeRx rx rx') (k : Fin 8) (id : BitVec 29) : holds rx k id = holds rx' k id := by
  unfold holds
  rw [← (h k).occ]
  cases hocc : (slotAt rx k).occ with
  | false => rfl
  | true => rw [(h k).id hocc]

theorem lru_congr (h : AgreeRx rx rx') (hfull : ∀ k, (slotAt rx k).occ = true) : lru rx = lru rx' := by
  have hts : opensEarlier rx = opensEarlier rx' := by
    funext j k
    rw [opensEarlier, opensEarlier, (h j).ts (hfull j), (h k).ts (hfull k)]
  rw [lru, lru, hts]

/-- `LOOKUP` reads no field of an empty slot (R267, R268). -/
theorem lookup_congr (h : AgreeRx rx rx') (id : BitVec 29) : lookup rx id = lookup rx' id := by
  have hown : ownSlot rx id = ownSlot rx' id := by simp only [ownSlot, holds_congr h]
  have hempty : firstEmpty rx = firstEmpty rx' := by simp only [firstEmpty, fun k => (h k).occ]
  unfold lookup
  rw [← hown, ← hempty]
  split
  · rfl
  · split
    · rfl
    next hnone => exact lru_congr h fun k => by simpa using find_slotIndices_none.mp hnone k

end

/-! ### Agreeing states step alike -/

/-- Both complete, in states that agree, or both are refused alike. -/
inductive AlikeOutcomes : Outcome → Outcome → Prop
  | next {t t' : State} (h : Agree t t') : AlikeOutcomes (.next t) (.next t')
  | refused (e : Refusal) : AlikeOutcomes (.refused e) (.refused e)

theorem AlikeOutcomes.of_next {t : State} {o : Outcome} (h : AlikeOutcomes (.next t) o) :
    ∃ t', o = .next t' ∧ Agree t t' := by
  cases h with
  | next hagree => exact ⟨_, rfl, hagree⟩

theorem AlikeOutcomes.of_refused {e : Refusal} {o : Outcome} (h : AlikeOutcomes (.refused e) o) : o = .refused e := by
  cases h
  rfl

/-- From states that agree the operation does alike. -/
def RunsAlike (m : State → Outcome) : Prop := ∀ s s' : State, Agree s s' → AlikeOutcomes (m s) (m s')

theorem alike_deliver {s s' : State} (h : Agree s s') (r : Result) : AlikeOutcomes (s.deliver r) (s'.deliver r) := by
  obtain ⟨hparams, hreq, -, htx, hrx⟩ := agree_iff.mp h
  exact .next (agree_iff.mpr ⟨hparams, hreq, rfl, htx, hrx⟩)

theorem alike_deliverTx {s s' : State} (h : Agree s s') {u u' : TxUnit} (hu : AgreeTx u u') (r : Result) :
    AlikeOutcomes (s.deliverTx u r) (s'.deliverTx u' r) := by
  obtain ⟨hparams, hreq, -, -, hrx⟩ := agree_iff.mp h
  exact .next (agree_iff.mpr ⟨hparams, hreq, rfl, hu, hrx⟩)

theorem agree_setRx {s s' : State} (h : Agree s s') {rx rx' : RxUnit} (hrx : AgreeRx rx rx') :
    Agree (s.setRx rx) (s'.setRx rx') := by
  obtain ⟨hparams, hreq, hresult, htx, -⟩ := agree_iff.mp h
  exact agree_iff.mpr ⟨hparams, hreq, hresult, htx, hrx⟩

theorem alike_deliverRx {s s' : State} (h : Agree s s') {rx rx' : RxUnit} (hrx : AgreeRx rx rx')
    (a : Option ReceivedMessage) : AlikeOutcomes (s.deliverRx rx a) (s'.deliverRx rx' a) :=
  alike_deliver (agree_setRx h hrx) (.received a)

theorem pure_runsAlike {m : State → Outcome} {es : List Refusal} (hm : RunsOn noPart es m) : RunsAlike m := by
  intro s s' h
  obtain ⟨hparams, -⟩ := agree_iff.mp h
  obtain ⟨_, r, hnext⟩ | ⟨e, -, hrefused⟩ := hm s.params ()
  · rw [hnext s rfl rfl, hnext s' hparams.symm rfl]
    exact alike_deliver h r
  · rw [hrefused s rfl rfl, hrefused s' hparams.symm rfl]
    exact .refused e

/-! #### The TX unit -/

/-- What `TX_LOAD` leaves (44_tx_encoder.md R240): it hides the bytes of the buffer from the body's end on. -/
theorem agreeTx_loaded (buf buf' : Memory Config.txCap) (id : BitVec 29) {body : Bytes} {len : Fin 65}
    (hbody : body.length = len.val) (crc : BitVec 16) :
    AgreeTx { id, buf := buf.writeBytes 0 body, len, crc, offset := 0, toggle := false }
      { id, buf := buf'.writeBytes 0 body, len, crc, offset := 0, toggle := false } where
  len := rfl
  offset := rfl
  toggle := rfl
  transfer _ := ⟨rfl, rfl, fun x (hx : x < len.val) => by
    have hin : 0 ≤ x ∧ x < 0 + body.length := by omega
    simp only [read_writeBytes, if_pos hin]⟩

theorem execTxLoad_runsAlike (sel : BitVec 8) (body : Bytes) (nodeType : BitVec 6) (nodeId : BitVec 12) :
    RunsAlike (execTxLoad sel body nodeType nodeId) := by
  intro s s' h
  obtain ⟨hparams, -⟩ := agree_iff.mp h
  unfold execTxLoad
  rw [← hparams]
  split
  · exact .refused _
  · split
    · exact .refused _
    next hbody => exact alike_deliverTx h (agreeTx_loaded _ _ _ (not_not.mp hbody) _) .nothing

theorem execTxHasNext_runsAlike : RunsAlike execTxHasNext := by
  intro s s' h
  obtain ⟨-, -, -, htx, -⟩ := agree_iff.mp h
  have hnext : hasNext s.tx = hasNext s'.tx := by rw [hasNext, hasNext, htx.offset, htx.len]
  unfold execTxHasNext
  rw [hnext]
  exact alike_deliver h _

/-- A frame sent from a transfer in progress, with bytes of its body only. -/
theorem alike_txEmit {s s' : State} (h : Agree s s') (hmore : s.tx.offset.val < s.tx.len.val) (pre : Bytes)
    {count : Nat} (hcount : s.tx.offset.val + count ≤ s.tx.len.val) (tail : Byte) (offset' : Fin 65) (toggle' : Bool) :
    AlikeOutcomes (txEmit s pre count tail offset' toggle') (txEmit s' pre count tail offset' toggle') := by
  obtain ⟨-, -, -, htx, -⟩ := agree_iff.mp h
  obtain ⟨hid, hcrc, hbuf⟩ := htx.transfer hmore
  have hbytes : s.tx.buf.readBytes s.tx.offset count = s'.tx.buf.readBytes s'.tx.offset count := by
    rw [← htx.offset]
    exact readBytes_congr fun k hk => hbuf _ (by omega)
  unfold txEmit
  rw [← hbytes, ← hid]
  refine alike_deliverTx h ?_ _
  exact ⟨htx.len, rfl, rfl, fun _ => ⟨hid, hcrc, hbuf⟩⟩

theorem execTxNext_runsAlike : RunsAlike execTxNext := by
  intro s s' h
  obtain ⟨-, -, -, htx, -⟩ := agree_iff.mp h
  unfold execTxNext
  simp only [← htx.len, ← htx.offset, ← htx.toggle]
  split
  next hmore =>
    have hmore : s.tx.offset.val < s.tx.len.val := hmore
    obtain ⟨-, hcrc, -⟩ := htx.transfer hmore
    rw [← hcrc]
    split
    next hsingle =>
      have hstart : s.tx.offset.val = 0 := congrArg Fin.val hsingle.1
      exact alike_txEmit h hmore _ (by omega) ..
    next hsingle =>
      split
      next hfirst =>
        have hstart : s.tx.offset.val = 0 := congrArg Fin.val hfirst
        have hlong : 7 < s.tx.len.val := Nat.lt_of_not_le fun hshort => hsingle ⟨hfirst, hshort⟩
        exact alike_txEmit h hmore _ (show s.tx.offset.val + 5 ≤ s.tx.len.val by omega) ..
      next =>
        split
        · exact alike_txEmit h hmore _ (by omega) ..
        · exact alike_txEmit h hmore _ (show s.tx.offset.val + 7 ≤ s.tx.len.val by omega) ..
  · exact .refused _

/-! #### The RX unit -/

theorem complete_alike {s s' : State} (h : Agree s s') {k : Fin 8} (hocc : (slotAt s.rx k).occ = true) :
    AlikeOutcomes (complete s k) (complete s' k) := by
  obtain ⟨hparams, -, -, -, hrx⟩ := agree_iff.mp h
  have hbody : (slotAt s.rx k).buf.readBytes 0 (slotAt s.rx k).len =
      (slotAt s'.rx k).buf.readBytes 0 (slotAt s'.rx k).len := by
    rw [← (hrx k).len hocc]
    exact readBytes_congr fun x hx => (hrx k).buf hocc _ (by omega)
  rw [complete_eq, complete_eq, ← hbody, ← (hrx k).crc hocc, ← (hrx k).id hocc, ← hparams]
  exact alike_deliverRx h (agreeRx_clearSlot hrx k) _

theorem handleOwn_alike {s s' : State} (h : Agree s s') {k : Fin 8} (hocc : (slotAt s.rx k).occ = true) (d : Bytes)
    (tail : Byte) : AlikeOutcomes (handleOwn s k d tail) (handleOwn s' k d tail) := by
  obtain ⟨hparams, -, -, -, hrx⟩ := agree_iff.mp h
  have hlen := (hrx k).len hocc
  unfold handleOwn
  simp only [← hparams, ← hlen]
  split
  · exact alike_deliverRx h hrx none
  · split
    next hfits =>
      have hgrown := agreeRx_setSlot hrx k (agreeSlot_appended (hrx k) hocc d hfits (hlen ▸ hfits))
      split
      · exact complete_alike (agree_setRx h hgrown) (by simpa [appended] using hocc)
      · exact alike_deliverRx h hgrown none
    · exact alike_deliverRx h (agreeRx_clearSlot hrx k) none

theorem handle_alike {s s' : State} (h : Agree s s') (k : Fin 8) (id : BitVec 29) (d : Bytes) (tail : Byte)
    (ts : BitVec 64) (hlen : d.length ≤ 8) :
    AlikeOutcomes (handle s k id d tail ts hlen) (handle s' k id d tail ts hlen) := by
  obtain ⟨-, -, -, -, hrx⟩ := agree_iff.mp h
  unfold handle
  rw [← (hrx k).occ]
  split
  next hocc =>
    rw [← (hrx k).id hocc]
    split
    · exact handleOwn_alike h hocc d tail
    · exact alike_deliverRx h (agreeRx_handleEmpty (agreeRx_clearSlot hrx k) k id d tail ts hlen) none
  · exact alike_deliverRx h (agreeRx_handleEmpty hrx k id d tail ts hlen) none

theorem receiveSingle_alike {s s' : State} (h : Agree s s') (id : BitVec 29) (d : Bytes) (tail : Byte) :
    AlikeOutcomes (receiveSingle s id d tail) (receiveSingle s' id d tail) := by
  obtain ⟨hparams, -, -, -, hrx⟩ := agree_iff.mp h
  rw [receiveSingle_eq, receiveSingle_eq, ← hparams]
  exact alike_deliverRx h hrx _

theorem receiveFrame_runsAlike (idIn : BitVec 32) (d : Bytes) (ts : BitVec 64) :
    RunsAlike (receiveFrame idIn d ts) := by
  intro s s' h
  obtain ⟨-, -, -, -, hrx⟩ := agree_iff.mp h
  unfold receiveFrame
  dsimp only
  rw [← lookup_congr hrx]
  split
  · split
    · exact alike_deliverRx h hrx none
    · split
      · exact alike_deliverRx h hrx none
      · split
        · exact receiveSingle_alike h ..
        · exact handle_alike h ..
  · exact .refused _

/-! #### Every step -/

theorem Meaning.runsAlike {m : State → Outcome} (hm : Meaning m) : RunsAlike m := by
  cases hm with
  | pure hm => exact pure_runsAlike hm
  | txLoad sel body nodeType nodeId => exact execTxLoad_runsAlike sel body nodeType nodeId
  | txHasNext => exact execTxHasNext_runsAlike
  | txNext => exact execTxNext_runsAlike
  | rxReset => exact fun s s' h => alike_deliver (agree_setRx h (agreeRx_clearAll s.rx s'.rx)) .nothing
  | rxFrame idIn d ts => exact receiveFrame_runsAlike idIn d ts

theorem agree_setRequests {s s' : State} (h : Agree s s') (rs : List Request) :
    Agree (s.setRequests rs) (s'.setRequests rs) := by
  obtain ⟨hparams, -, hresult, htx, hrx⟩ := agree_iff.mp h
  exact agree_iff.mpr ⟨hparams, rfl, hresult, htx, hrx⟩

theorem step_runsAlike : RunsAlike step := by
  intro s s' h
  obtain ⟨-, hreq, -⟩ := agree_iff.mp h
  cases hs : s.requests with
  | nil =>
    rw [step_of_no_request hs, step_of_no_request (hreq ▸ hs)]
    exact .next h
  | cons r rest =>
    cases hr : decode r with
    | error e =>
      rw [step_of_decode_error hs hr, step_of_decode_error (hreq ▸ hs) hr]
      exact .refused _
    | ok i =>
      rw [step_of_decode_ok hs hr, step_of_decode_ok (hreq ▸ hs) hr]
      exact (exec_meaning i).runsAlike _ _ (agree_setRequests h rest)

/-! ### `TX_HAS_NEXT`, and `TX_NEXT` with nothing left to send (44_tx_encoder.md R241, R250) -/

theorem decode_cmd (cmd : BitVec 6) (sel : BitVec 8) (ops : Bundle) :
    decode ⟨.cmd (cmd ++ sel), ops⟩ = decodeCmd (cmdWord cmd sel) ops := rfl

theorem selects_txHasNext (sel : BitVec 8) : Selects 0x21 sel .txHasNext :=
  ⟨⟨[], []⟩, by rw [decode_cmd, decodeCmd, cmdOf_cmdWord]; rfl⟩

theorem selects_txNext (sel : BitVec 8) : Selects 0x22 sel .txNext :=
  ⟨⟨[], []⟩, by rw [decode_cmd, decodeCmd, cmdOf_cmdWord]; rfl⟩

theorem execTxHasNext_of_more {s : State} (h : s.tx.offset.val < s.tx.len.val) :
    execTxHasNext s = s.deliver (.hasNext true) := by
  rw [execTxHasNext, hasNext, decide_eq_true (Fin.lt_def.mpr h)]

theorem execTxHasNext_of_done {s : State} (h : s.tx.len.val ≤ s.tx.offset.val) :
    execTxHasNext s = s.deliver (.hasNext false) := by
  rw [execTxHasNext, hasNext, decide_eq_false (Fin.not_lt.mpr h)]

theorem execTxNext_of_done {s : State} (h : s.tx.len.val ≤ s.tx.offset.val) :
    execTxNext s = .refused .nothingToSend := if_neg (Nat.not_lt.mpr h)

/-! ### The obligations -/

/-- Settles O55, by the meanings of the operations: `TX_LOAD` starts a transfer, each frame sent moves it on to a place
that goes with its toggle, and a slot is opened only for an identifier that no slot holds. -/
theorem invariantKept : Obligations.InvariantKept := step_keepsInv

/-- Settles O60, by the meanings of the operations: what an operation reads of a unit is what agreeing states share. -/
theorem unspecifiedIsUnobservable : Obligations.UnspecifiedIsUnobservable := by
  intro s s' h
  have halike := step_runsAlike s s' h
  exact ⟨fun t ht => (ht ▸ halike).of_next, fun e he => (he ▸ halike).of_refused⟩

/-- Settles O57: an operation of neither unit runs on the parameters alone. -/
theorem pureOperations : Obligations.PureOperations := by
  intro i s t hTx hRx ht
  obtain ⟨_, r, rfl, hall⟩ := (exec_runsOn_noPart hTx hRx).next ht
  exact ⟨rfl, fun s' hs' => hall s' hs' rfl⟩

/-- Settles O1. -/
theorem resetValues : Obligations.ResetValues :=
  ⟨rfl, rfl, rfl, occ_atReset,
    fun s => ⟨(s.setRx (clearAll s.rx)).setResult .nothing, rfl, fun k => by simp⟩⟩

/-- Settles O32. -/
theorem txHasNext : Obligations.TxHasNext := by
  refine ⟨selects_txHasNext, selects_txNext, fun s => ⟨execTxHasNext_of_more, fun hdone => ?_⟩⟩
  exact ⟨execTxHasNext_of_done hdone, execTxNext_of_done hdone⟩

/-- Settles O54. -/
theorem invariantAtReset : Obligations.InvariantAtReset :=
  ⟨txInv_atReset, rxInv_atReset⟩

end Sys2Proof.Proofs
end

section
/-! SUPPORT. The family of 20_memory.md: a frame touches one slot at most, the one `LOOKUP` selects, and leaves it empty
or to the frame's own identifier (`Confined`). -/

namespace Sys2Proof.Proofs

open Sys2Proof.Machine Sys2Proof.Claims

/-! ### What one frame does to the slot file -/

/-- From `rx` to `rx'` only slot `k` has changed, and it is empty or holds the identifier `id` after. -/
structure Confined (k : Fin 8) (id : BitVec 29) (rx rx' : RxUnit) : Prop where
  others : ∀ j, j ≠ k → slotAt rx' j = slotAt rx j
  own : (slotAt rx' k).occ = true → (slotAt rx' k).id = id

section
variable {rx : RxUnit} {k : Fin 8} {id : BitVec 29}

theorem confined_refl (h : (slotAt rx k).occ = true → (slotAt rx k).id = id) : Confined k id rx rx :=
  ⟨fun _ _ => rfl, h⟩

theorem confined_setSlot {sl : Slot} (h : sl.occ = true → sl.id = id) : Confined k id rx (setSlot rx k sl) :=
  ⟨fun _ hj => setSlot_get_of_ne rx sl hj, by simpa using h⟩

theorem confined_clearSlot : Confined k id rx (clearSlot rx k) := confined_setSlot (by simp)

theorem Confined.trans {rx₁ rx₂ : RxUnit} (h : Confined k id rx rx₁) (h' : Confined k id rx₁ rx₂) :
    Confined k id rx rx₂ :=
  ⟨fun j hj => (h'.others j hj).trans (h.others j hj), h'.own⟩

/-- An empty slot is opened for the frame's identifier (45_rx_decoder.md R269) or stays empty (R270). -/
theorem confined_handleEmpty (hempty : (slotAt rx k).occ = false) (d : Bytes) (tail : Byte) (ts : BitVec 64)
    (h : d.length ≤ 8) : Confined k id rx (handleEmpty rx k id d tail ts h) := by
  obtain ⟨-, heq⟩ | ⟨-, heq⟩ := handleEmpty_cases rx k id d tail ts h <;> rw [heq]
  · exact confined_setSlot fun _ => rfl
  · exact confined_refl (by simp [hempty])

end

section
variable {s t : State} {k : Fin 8} {id : BitVec 29}

theorem complete_confined (ht : complete s k = .next t) : Confined k id s.rx t.rx := by
  rw [complete_eq] at ht
  cases ht
  exact confined_clearSlot

/-- The identifier of an occupied slot outlasts an append (R274); the slot ends with it or empty (R271 to R275). -/
theorem handleOwn_confined (hid : (slotAt s.rx k).id = id) {d : Bytes} {tail : Byte}
    (ht : handleOwn s k d tail = .next t) : Confined k id s.rx t.rx := by
  have happended (hfits) : Confined k id s.rx (setSlot s.rx k (appended (slotAt s.rx k) d hfits)) :=
    confined_setSlot fun _ => hid
  obtain ⟨-, h⟩ | ⟨-, -, -, h⟩ | ⟨-, -, hfits, ⟨-, h⟩ | ⟨-, h⟩⟩ := handleOwn_cases s k d tail <;> rw [h] at ht
  · cases ht
    exact confined_refl fun _ => hid
  · cases ht
    exact confined_clearSlot
  · exact (happended hfits).trans (complete_confined ht)
  · cases ht
    exact happended hfits

/-- `HANDLE(k)` (R261) touches slot `k` alone; a foreign transfer there is cleared first (R276). -/
theorem handle_confined {d : Bytes} {tail : Byte} {ts : BitVec 64} {h : d.length ≤ 8}
    (ht : handle s k id d tail ts h = .next t) : Confined k id s.rx t.rx := by
  obtain ⟨hempty, heq⟩ | ⟨-, hid, heq⟩ | ⟨-, -, heq⟩ := handle_cases s k id d tail ts h <;> rw [heq] at ht
  · cases ht
    exact confined_handleEmpty hempty ..
  · exact handleOwn_confined hid ht
  · cases ht
    exact confined_clearSlot.trans (confined_handleEmpty (by simp) ..)

/-- A frame leaves the slots as they were, or is no frame of the log channel (R263) and touches the slot `LOOKUP` selects
alone. -/
theorem receiveFrame_confined {idIn : BitVec 32} {d : Bytes} {ts : BitVec 64} (ht : receiveFrame idIn d ts s = .next t) :
    t.rx = s.rx ∨
    (messageTypeOfId (idIn.setWidth 29) ≠ Config.mtLog ∧
      Confined (lookup s.rx (idIn.setWidth 29)) (idIn.setWidth 29) s.rx t.rx) := by
  obtain ⟨-, h⟩ | ⟨-, -, h⟩ | ⟨hlog, hlen, tail, -, ⟨-, -, h⟩ | ⟨-, h⟩⟩ :=
    receiveFrame_cases idIn d ts s <;> rw [h] at ht
  · cases ht
  · cases ht
    exact .inl rfl
  · rw [receiveSingle_eq] at ht
    cases ht
    exact .inl rfl
  · exact .inr ⟨hlog, handle_confined ht⟩

end

/-! ### Slots of other identifiers, and the log channel -/

/-- Where the slot that `LOOKUP` selects is occupied by another identifier, step 3 selected it: the oldest of a full
decoder (R267, R268). -/
theorem oldest_of_lookup_foreign {s : State} {id : BitVec 29} (hocc : (slotAt s.rx (lookup s.rx id)).occ = true)
    (hforeign : (slotAt s.rx (lookup s.rx id)).id ≠ id) :
    (∀ j : Fin 8, (slotAt s.rx j).occ = true) ∧ (∀ j, ¬ Owns s j id) ∧
      ∀ j : Fin 8, (slotAt s.rx (lookup s.rx id)).ts.toNat ≤ (slotAt s.rx j).ts.toNat := by
  obtain hown | ⟨-, hempty, -⟩ | ⟨hnone, hfull, hlru⟩ := lookup_cases s.rx id
  · exact absurd ((holds_iff ..).mp hown).2 hforeign
  · simp [hempty] at hocc
  · refine ⟨hfull, fun j hj => ?_, fun j => ?_⟩
    · simpa [hnone j] using (holds_iff s.rx j id).mpr hj
    · rw [hlru]
      exact (lru_spec s.rx j).1

/-- The `message_type` that the filter reads is the field of 30_encoding.md R81. -/
theorem messageTypeOfId_eq_mtOf (id : BitVec 29) : messageTypeOfId id = mtOf id := BitVec.setWidth_ushiftRight_eq_extractLsb

/-- A slot file in which no slot holds a log-channel transfer (30_encoding.md R92). -/
def NoLog (rx : RxUnit) : Prop := ∀ k : Fin 8, (slotAt rx k).occ = true → mtOf (slotAt rx k).id ≠ 255

theorem Confined.noLog {k : Fin 8} {id : BitVec 29} {rx rx' : RxUnit} (h : Confined k id rx rx') (hid : mtOf id ≠ 255)
    (hrx : NoLog rx) : NoLog rx' := by
  intro j hocc
  by_cases hj : j = k
  · subst hj
    rwa [h.own hocc]
  · rw [h.others j hj] at hocc ⊢
    exact hrx j hocc

/-- Settles O59: a frame is confined to the slot that `LOOKUP` selects, which another identifier occupies only where it
is the oldest of a full decoder; and no frame of the log channel gets that far. -/
theorem slotIsolation : Obligations.SlotIsolation := by
  intro idIn d ts s t ht
  obtain hsame | ⟨hlog, hconfined⟩ := receiveFrame_confined ht
  · rw [hsame]
    exact ⟨fun _ _ _ => .inl rfl, id⟩
  · refine ⟨fun k hocc hforeign => ?_, hconfined.noLog (messageTypeOfId_eq_mtOf _ ▸ hlog)⟩
    by_cases hk : k = lookup s.rx (idIn.setWidth 29)
    · subst hk
      exact .inr (oldest_of_lookup_foreign hocc hforeign)
    · exact .inl (hconfined.others k hk)

end Sys2Proof.Proofs
end

section
/-! SUPPORT. The family of 30_encoding.md, the words and their bundles: the encoder and the decoder are inverse, up to a
`sel` that is ignored, and what the tables leave unassigned is rejected. -/

namespace Sys2Proof.Proofs

open Sys2Proof.Machine Sys2Proof.Claims

/-! ### What the encoder writes is read back -/

theorem decode_cmdRequest (c : BitVec 6) (sel : BitVec 8) (bytes : Bytes) (nums : List Nat) :
    decode (cmdRequest c sel bytes nums) = decodeCmd (cmdWord c sel) ⟨bytes, nums⟩ := rfl

theorem decode_packRequest (sel : BitVec 8) (bytes : Bytes) (nums : List Nat) :
    decode (cmdRequest 0x30#6 sel bytes nums) = decodePack sel ⟨bytes, nums⟩ := by
  simp [decode_cmdRequest, decodeCmd]

theorem decode_unpackRequest (sel : BitVec 8) (bytes : Bytes) (nums : List Nat) :
    decode (cmdRequest 0x31#6 sel bytes nums) = decodeUnpack sel ⟨bytes, nums⟩ := by
  simp [decode_cmdRequest, decodeCmd]

theorem decode_packSubRequest (sel : BitVec 8) (bytes : Bytes) (nums : List Nat) :
    decode (cmdRequest 0x32#6 sel bytes nums) = decodePackSub sel ⟨bytes, nums⟩ := by
  simp [decode_cmdRequest, decodeCmd]

theorem decode_unpackSubRequest (sel : BitVec 8) (bytes : Bytes) (nums : List Nat) :
    decode (cmdRequest 0x33#6 sel bytes nums) = decodeUnpackSub sel ⟨bytes, nums⟩ := by
  simp [decode_cmdRequest, decodeCmd]

/-- The tail byte of 30_encoding.md R84 is the model's. -/
theorem tail_eq_tailByte (sot eot tog : Bool) (r : BitVec 5) : tail sot eot tog r = tailByte sot eot tog r := by
  revert sot eot tog r; decide

/-- A tail byte decodes to the row of its flags (30_encoding.md R89). -/
theorem decode_tailRequest (sot eot tog : Bool) (r : BitVec 5) (idIn : BitVec 32) (body : Bytes) (ts : BitVec 64) :
    decode (tailRequest sot eot tog r idIn body ts) = .ok (frameRow sot eot tog r idIn body ts) := by
  simp only [decode, tailRequest, decodeTail, tailSot_tailByte, tailEot_tailByte, tailTog_tailByte, reserved_tailByte,
    word_zero, word_succ]
  rw [accept_ok rfl (by simp)]
  cases sot <;> cases eot <;> cases tog <;> rfl

/-- An identifier word decodes to the row of its message_type (30_encoding.md R91, R92). -/
theorem decode_identRequest {row : IdentFields → Bytes → BitVec 64 → Instr} {mt : BitVec 8}
    (hrow : (row, mt) ∈ identRows) (x : IdentFields) (d : Bytes) (ts : BitVec 64) :
    decode (identRequest mt x d ts) = .ok (row x d ts) := by
  have haccept (i : Instr) : accept ⟨d, [ts.toNat]⟩ none [some 64] i = .ok i := accept_ok rfl (by simp)
  simp only [decode, identRequest, decodeIdent, identMessageType_identWord, identFields_identWord, word_zero, haccept]
  fin_cases hrow <;> rfl

theorem decode_encode (i : Instr) (hi : i.wellFormed = true) : decode (encode i) = .ok i := by
  cases i with
  | putBits B o w v =>
    have hv : putBitsValueFits w v = true := hi
    simp [encode, decode_cmdRequest, decodeCmd, accept, bytesFit, hv]
  | crc16 s | decode sel s =>
    have hs : s.length ≤ Config.operandMax := of_decide_eq_true hi
    simp [encode, decode_cmdRequest, decodeCmd, accept, bytesFit, hs]
  | packDataTransfer v =>
    obtain ⟨⟨⟨data⟩, hdata⟩, _⟩ := v
    have hlen : data.length = 32 := hdata
    simp [encode, decode_packRequest, decodePack, acceptDataTransfer, accept, bytesFit, hlen]
  | packReset | packPreUnixTime | packNodeStatus | packVlStatus | packAmpControl | packPayloadEpsOutputOverwrite
  | packAck | packAmpOverwrite | packAirBrakesControl | packRocketState
  | packUnixTime | packAmpStatus | packPayloadEpsStatus | packAmpResetOutput | packBaroMeasurement
  | packImuMeasurement | packBrightnessMeasurement | packMagMeasurement | packOzysMeasurement | packIcarusStatus =>
    simp [encode, decode_packRequest, decodePack, accept, bytesFit]
  | unpackReset | unpackUnixTime | unpackPreUnixTime | unpackDataTransfer | unpackNodeStatus | unpackAmpStatus
  | unpackPayloadEpsStatus | unpackVlStatus | unpackAmpControl | unpackPayloadEpsOutputOverwrite | unpackAck
  | unpackAmpOverwrite | unpackAmpResetOutput | unpackAirBrakesControl | unpackBaroMeasurement
  | unpackImuMeasurement | unpackBrightnessMeasurement | unpackRocketState | unpackMagMeasurement
  | unpackOzysMeasurement | unpackIcarusStatus =>
    simp [encode, decode_unpackRequest, decodeUnpack, accept, bytesFit]
  | packAmpOutStatus | packEpsOutStatus => simp [encode, decode_packSubRequest, decodePackSub, accept, bytesFit]
  | unpackAmpOutStatus | unpackEpsOutStatus =>
    simp [encode, decode_unpackSubRequest, decodeUnpackSub, accept, bytesFit]
  | frameSingle | frameSingleBadtog | frameFirst | frameFirstBadtog => exact decode_tailRequest ..
  | frameMiddle tog => cases tog <;> exact decode_tailRequest ..
  | frameLast tog => cases tog <;> exact decode_tailRequest ..
  | idReset | idUnixTime | idPreUnixTime | idDataTransfer | idNodeStatus | idAmpStatus | idPayloadEpsStatus
  | idVlStatus | idAmpControl | idPayloadEpsOutputOverwrite | idAck | idAmpOverwrite | idAmpResetOutput
  | idAirBrakesControl | idBaroMeasurement | idImuMeasurement | idBrightnessMeasurement | idRocketState
  | idMagMeasurement | idOzysMeasurement | idIcarusStatus | idLogChannel =>
    exact decode_identRequest (by simp [identRows]) ..
  | _ => simp [encode, decode_cmdRequest, decodeCmd, accept, bytesFit]

/-! ### What the decoder reads is written back -/

/-- Operand `k` of a bundle as an operation holds it, by the width of its port: any number, a Boolean, a word. -/
def portValue (b : Bundle) (k : Nat) : Option Nat → Nat
  | none => b.nat k
  | some 1 => (b.flag k).toNat
  | some w => (b.word w k).toNat

/-- The operands from `k` on, as an operation with these ports holds them. -/
def portValues (b : Bundle) (k : Nat) : List (Option Nat) → List Nat
  | [] => []
  | p :: ports => portValue b k p :: portValues b (k + 1) ports

/-- The byte-sequence operand as an operation holds it. -/
def admittedBytes (b : Bundle) : Option Nat → Bytes
  | some 0 => []
  | _ => b.bytes

/-- A number that fits its port goes through it unaltered. -/
theorem portValue_of_lt {b : Bundle} {k w : Nat} (h : b.nat k < 2 ^ w) : portValue b k (some w) = b.nat k := by
  unfold portValue
  split
  next heq => cases heq
  next heq =>
    cases heq
    have : b.nat k = 0 ∨ b.nat k = 1 := by omega
    obtain h0 | h1 := this <;> simp [Bundle.flag, *]
  next heq =>
    cases heq
    simp [Bundle.word, Nat.mod_eq_of_lt h]

theorem portValues_of_numsFit {b : Bundle} {k : Nat} {ports : List (Option Nat)}
    (h : numsFit ports (b.nums.drop k) = true) : portValues b k ports = b.nums.drop k := by
  induction ports generalizing k with
  | nil => exact (numsFit_end h).symm
  | cons p ports ih =>
    have hcons : ∀ {n ns}, b.nums.drop k = n :: ns → b.nat k = n ∧ b.nums.drop (k + 1) = ns := by
      intro n ns hdrop
      have hget : b.nums[k]? = some n := by rw [← List.head?_drop, hdrop]; rfl
      exact ⟨by simp [Bundle.nat, hget], by rw [← List.tail_drop, hdrop]; rfl⟩
    cases p with
    | none =>
      obtain ⟨n, ns, hdrop, hrest⟩ := numsFit_any h
      obtain ⟨hn, hns⟩ := hcons hdrop
      rw [portValues, ih (hns.symm ▸ hrest), hns, hdrop, portValue, hn]
    | some w =>
      obtain ⟨n, ns, hdrop, hlt, hrest⟩ := numsFit_some h
      obtain ⟨hn, hns⟩ := hcons hdrop
      rw [portValues, ih (hns.symm ▸ hrest), hns, hdrop, portValue_of_lt (hn.symm ▸ hlt), hn]

theorem admittedBytes_of_bytesFit {b : Bundle} {most : Option Nat} (h : bytesFit most b.bytes = true) :
    admittedBytes b most = b.bytes := by
  unfold admittedBytes
  split
  · exact (List.length_eq_zero_iff.mp (Nat.le_zero.mp (of_decide_eq_true h))).symm
  · rfl

/-- An answer of the decoder to a request that loses nothing of it: the operation is written as the same bundle with the
word `w`. -/
def WrittenBack (w : SelWord) (b : Bundle) (a : Except DecodeError Instr) : Prop :=
  ∀ i, a = .ok i → encode i = ⟨w, b⟩

theorem writtenBack_error {w : SelWord} {b : Bundle} {e : DecodeError} : WrittenBack w b (.error e) := nofun

/-- A bundle that `accept` takes is the one that the operation's values make up. -/
theorem writtenBack_accept {w : SelWord} {b : Bundle} {most : Option Nat} {ports : List (Option Nat)} {i : Instr}
    (h : encode i = ⟨w, admittedBytes b most, portValues b 0 ports⟩) : WrittenBack w b (accept b most ports i) := by
  intro j hj
  obtain ⟨hbytes, hnums, rfl⟩ := accept_eq_ok.mp hj
  rw [h, admittedBytes_of_bytesFit hbytes, portValues_of_numsFit hnums]
  rfl

/-- The word that the encoder writes for a command word: an ignored `sel` is written 0 (30_encoding.md R99). -/
def canonicalWord (w : BitVec 14) : BitVec 14 := cmdWord (cmdOf w) (if ignoresSel (cmdOf w) then 0 else selOf w)

theorem cmdOf_eq {w : BitVec 14} {c : BitVec 6} (h : (cmdOf w).toNat = c.toNat) : cmdOf w = c :=
  BitVec.eq_of_toNat_eq h

/-- A command whose `sel` is ignored. -/
theorem writtenBack_ignoring {w : BitVec 14} {b : Bundle} {most : Option Nat} {ports : List (Option Nat)} {i : Instr}
    {c : BitVec 6} (h : encode i = cmdRequest c 0 (admittedBytes b most) (portValues b 0 ports))
    (hc : (cmdOf w).toNat = c.toNat) (hign : ignoresSel c = true) :
    WrittenBack (.cmd (canonicalWord w)) b (accept b most ports i) := by
  refine writtenBack_accept (h.trans ?_)
  rw [canonicalWord, cmdOf_eq hc, hign]
  rfl

/-- A command that `sel` belongs to, whatever it decodes to. -/
theorem writtenBack_selecting {w : BitVec 14} {b : Bundle} {a : Except DecodeError Instr} {c : BitVec 6}
    (h : WrittenBack (.cmd (cmdWord c (selOf w))) b a) (hc : (cmdOf w).toNat = c.toNat) (hsel : ignoresSel c = false) :
    WrittenBack (.cmd (canonicalWord w)) b a := by
  rw [canonicalWord, cmdOf_eq hc, hsel]
  exact h

/-- One row of the forms that take a class in `sel`. -/
theorem writtenBack_row {c : BitVec 6} {sel mt : BitVec 8} {b : Bundle} {most : Option Nat}
    {ports : List (Option Nat)} {i : Instr}
    (h : encode i = cmdRequest c mt (admittedBytes b most) (portValues b 0 ports)) (hsel : sel.toNat = mt.toNat) :
    WrittenBack (.cmd (cmdWord c sel)) b (accept b most ports i) :=
  writtenBack_accept (h.trans (by rw [BitVec.eq_of_toNat_eq hsel]; rfl))

theorem writtenBack_acceptDataTransfer {sel : BitVec 8} (b : Bundle) (hsel : sel.toNat = (16#8).toNat) :
    WrittenBack (.cmd (cmdWord 0x30 sel)) b (acceptDataTransfer b) := by
  unfold acceptDataTransfer
  split
  · exact writtenBack_row rfl hsel
  · exact writtenBack_error

theorem writtenBack_decodePack (sel : BitVec 8) (b : Bundle) :
    WrittenBack (.cmd (cmdWord 0x30 sel)) b (decodePack sel b) := by
  unfold decodePack
  split
  case h_4 hsel => exact writtenBack_acceptDataTransfer b hsel
  case h_22 => exact writtenBack_error
  all_goals
    next hsel => exact writtenBack_row rfl hsel

theorem writtenBack_decodeUnpack (sel : BitVec 8) (b : Bundle) :
    WrittenBack (.cmd (cmdWord 0x31 sel)) b (decodeUnpack sel b) := by
  unfold decodeUnpack
  split
  case h_22 => exact writtenBack_error
  all_goals
    next hsel => exact writtenBack_row rfl hsel

theorem writtenBack_decodePackSub (sel : BitVec 8) (b : Bundle) :
    WrittenBack (.cmd (cmdWord 0x32 sel)) b (decodePackSub sel b) := by
  unfold decodePackSub
  split
  case h_3 => exact writtenBack_error
  all_goals
    next hsel => exact writtenBack_row rfl hsel

theorem writtenBack_decodeUnpackSub (sel : BitVec 8) (b : Bundle) :
    WrittenBack (.cmd (cmdWord 0x33 sel)) b (decodeUnpackSub sel b) := by
  unfold decodeUnpackSub
  split
  case h_3 => exact writtenBack_error
  all_goals
    next hsel => exact writtenBack_row rfl hsel

theorem writtenBack_decodeCmd (w : BitVec 14) (b : Bundle) :
    WrittenBack (.cmd (canonicalWord w)) b (decodeCmd w b) := by
  unfold decodeCmd
  split
  case h_11 hc =>
    split
    · exact writtenBack_ignoring rfl hc rfl
    · exact writtenBack_error
  case h_15 hc | h_17 hc | h_18 hc | h_19 hc => exact writtenBack_selecting (writtenBack_row rfl rfl) hc rfl
  case h_24 hc => exact writtenBack_selecting (writtenBack_decodePack _ b) hc rfl
  case h_25 hc => exact writtenBack_selecting (writtenBack_decodeUnpack _ b) hc rfl
  case h_26 hc => exact writtenBack_selecting (writtenBack_decodePackSub _ b) hc rfl
  case h_27 hc => exact writtenBack_selecting (writtenBack_decodeUnpackSub _ b) hc rfl
  case h_28 => exact writtenBack_error
  all_goals
    next hc => exact writtenBack_ignoring rfl hc rfl

/-- The row of the six patterns of R89, whose flags and reserved bits make up the tail byte. -/
theorem writtenBack_decodeTail (t : Byte) (b : Bundle) : WrittenBack (.tail t) b (decodeTail t b) := by
  refine writtenBack_accept ?_
  conv_rhs => rw [← tailByte_fields t]
  generalize tailSot t = sot, tailEot t = eot, tailTog t = tog
  cases sot <;> cases eot <;> cases tog <;> rfl

/-- One identifier row, whose message_type and other fields make up the word. -/
theorem writtenBack_identRow {id : BitVec 32} {b : Bundle} {i : Instr} {mt : BitVec 8}
    (h : encode i = identRequest mt (identFields id) b.bytes (b.word 64 0))
    (hmt : (identMessageType id).toNat = mt.toNat) : WrittenBack (.ident id) b (accept b none [some 64] i) := by
  refine writtenBack_accept (h.trans ?_)
  conv_rhs => rw [← identWord_fields id, BitVec.eq_of_toNat_eq hmt]
  rfl

theorem writtenBack_decodeIdent (id : BitVec 32) (b : Bundle) : WrittenBack (.ident id) b (decodeIdent id b) := by
  unfold decodeIdent
  dsimp only
  split
  case h_23 => exact writtenBack_error
  all_goals
    next hmt => exact writtenBack_identRow rfl hmt

/-! ### What the tables leave unassigned -/

/-- The commands of R99 are those that ignore `sel` and the eight that do not. -/
theorem toNat_of_unassigned {c : BitVec 6} (hign : ignoresSel c = false)
    (hsel : c ∉ [0x12, 0x19, 0x1A, 0x20, 0x30, 0x31, 0x32, 0x33]) :
    c.toNat ∉ [0x01, 0x02, 0x03, 0x04, 0x05, 0x06, 0x07, 0x08, 0x09, 0x0A, 0x0B, 0x0C, 0x10, 0x11, 0x12, 0x18, 0x19,
      0x1A, 0x20, 0x21, 0x22, 0x28, 0x29, 0x30, 0x31, 0x32, 0x33] := by
  revert c; decide

theorem decodeCmd_unassigned {c : BitVec 6} (hign : ignoresSel c = false)
    (hsel : c ∉ [0x12, 0x19, 0x1A, 0x20, 0x30, 0x31, 0x32, 0x33]) (sel : BitVec 8) (ops : Bundle) :
    decodeCmd (cmdWord c sel) ops = .error .unassignedCmd := by
  have hnone := toNat_of_unassigned hign hsel
  unfold decodeCmd
  rw [cmdOf_cmdWord]
  split
  case h_28 => rfl
  all_goals
    next hc => exact absurd (by rw [hc]; decide) hnone

theorem toNat_of_not_known {sel : BitVec 8} (h : ¬ Known sel) : sel.toNat ∉ catalogue.map CatalogueRow.mt := by
  simpa [Known] using h

theorem decodePack_unknown {sel : BitVec 8} (h : ¬ Known sel) (ops : Bundle) :
    decodePack sel ops = .error .noSuchClass := by
  have hnone := toNat_of_not_known h
  unfold decodePack
  split
  case h_22 => rfl
  all_goals
    next hsel => exact absurd (by rw [hsel]; decide) hnone

theorem decodeUnpack_unknown {sel : BitVec 8} (h : ¬ Known sel) (ops : Bundle) :
    decodeUnpack sel ops = .error .noSuchClass := by
  have hnone := toNat_of_not_known h
  unfold decodeUnpack
  split
  case h_22 => rfl
  all_goals
    next hsel => exact absurd (by rw [hsel]; decide) hnone

theorem decodePackSub_unknown {sel : BitVec 8} (h : 1 < sel.toNat) (ops : Bundle) :
    decodePackSub sel ops = .error .noSuchClass := by
  unfold decodePackSub
  split
  case h_3 => rfl
  all_goals omega

theorem decodeUnpackSub_unknown {sel : BitVec 8} (h : 1 < sel.toNat) (ops : Bundle) :
    decodeUnpackSub sel ops = .error .noSuchClass := by
  unfold decodeUnpackSub
  split
  case h_3 => rfl
  all_goals omega

theorem decodeIdent_unknown {id : BitVec 32} (h : ¬ Known (identMessageType id)) (hlog : identMessageType id ≠ 255#8)
    (ops : Bundle) : decodeIdent id ops = .error .noIdentRow := by
  have hnone := toNat_of_not_known h
  unfold decodeIdent
  dsimp only
  split
  case h_22 hmt => exact absurd (BitVec.eq_of_toNat_eq hmt) hlog
  case h_23 => rfl
  all_goals
    next hmt => exact absurd (by rw [hmt]; decide) hnone

/-! ### A tail row is `RX_FRAME` of the frame that ends in the tail -/

theorem selects_rxFrame (sel : BitVec 8) (idIn : BitVec 32) (d : Bytes) (ts : BitVec 64) :
    Selects 0x29 sel (.rxFrame idIn d ts) :=
  ⟨⟨d, [idIn.toNat, ts.toNat]⟩, by simp [decode_cmd, decodeCmd, accept, bytesFit]⟩

theorem exec_frameRow (sot eot tog : Bool) (r : BitVec 5) (idIn : BitVec 32) (body : Bytes) (ts : BitVec 64)
    (s : State) :
    exec (frameRow sot eot tog r idIn body ts) s = receiveFrame idIn (body ++ [tail sot eot tog r]) ts s := by
  rw [tail_eq_tailByte]
  cases sot <;> cases eot <;> cases tog <;> rfl

/-! ### The obligations -/

/-- Settles O5, by the round trip of each operation through the row it is written in. -/
theorem decodeOfEncode : Obligations.DecodeOfEncode := decode_encode

/-- Settles O6: what the decoder reads is written back as the same bundle and the same word, but for a `sel` that the
command ignores. -/
theorem decodeKeepsEverything : Obligations.DecodeKeepsEverything := by
  rintro ⟨word, b⟩ i hi
  refine ⟨wellFormed_of_decode hi, ?_⟩
  cases word with
  | cmd w =>
    rw [writtenBack_decodeCmd w b i hi]
    refine ⟨rfl, ?_⟩
    unfold canonicalWord
    by_cases hign : ignoresSel (cmdOf w) = true
    · rw [if_pos hign]
      exact .inr ⟨cmdOf w, selOf w, hign, congrArg SelWord.cmd (cmdWord_fields w).symm, rfl⟩
    · rw [if_neg hign]
      exact .inl (congrArg SelWord.cmd (cmdWord_fields w))
  | tail t =>
    rw [writtenBack_decodeTail t b i hi]
    exact ⟨rfl, .inl rfl⟩
  | ident id =>
    rw [writtenBack_decodeIdent id b i hi]
    exact ⟨rfl, .inl rfl⟩

/-- Settles O7, by the rows that each part of the decoder knows. -/
theorem unassignedWordsRefused : Obligations.UnassignedWordsRefused := by
  refine fun ops => ⟨fun c sel hign hsel => decodeCmd_unassigned hign hsel sel ops, fun sel h => ⟨?_, ?_⟩,
    fun sel h => ⟨?_, ?_⟩, fun id h hlog => decodeIdent_unknown h hlog ops⟩
  · exact (decode_packRequest sel ops.bytes ops.nums).trans (decodePack_unknown h ops)
  · exact (decode_unpackRequest sel ops.bytes ops.nums).trans (decodeUnpack_unknown h ops)
  · exact (decode_packSubRequest sel ops.bytes ops.nums).trans (decodePackSub_unknown h ops)
  · exact (decode_unpackSubRequest sel ops.bytes ops.nums).trans (decodeUnpackSub_unknown h ops)

/-- Settles O4. -/
theorem writtenWordsDecode : Obligations.WrittenWordsDecode := ⟨rfl, rfl, rfl, rfl, rfl, rfl⟩

/-- Settles O37: the row of a tail byte is the one its flags select. -/
theorem frameRowsAreRxFrames : Obligations.FrameRowsAreRxFrames := by
  intro sot eot tog r idIn body ts
  refine ⟨fun sel d => selects_rxFrame sel idIn d ts, ?_, exec_frameRow sot eot tog r idIn body ts⟩
  rw [tail_eq_tailByte]
  exact decode_tailRequest ..

end Sys2Proof.Proofs
end

section
/-! SUPPORT. The family of 30_encoding.md, the frames of a transfer (R90, 44_tx_encoder.md R248). `place` says where a
transfer stands before each of its frames; one `TX_NEXT` moves it from one place to the next (`execTxNext_of_sending`),
and the frame it emits holds the body between the two. -/

namespace Sys2Proof.Proofs

open Sys2Proof.Machine Sys2Proof.Claims

/-! ### The places of a transfer -/

/-- `tx_offset` before frame `j` of a body of `L` bytes, and at the end of the transfer (44_tx_encoder.md R243 to R246). -/
def place (L j : Nat) : Nat := if j < frameCount L then 7 * j - 2 else L

theorem place_of_lt {L j : Nat} (h : j < frameCount L) : place L j = 7 * j - 2 := if_pos h

theorem place_frameCount (L : Nat) : place L (frameCount L) = L := if_neg (lt_irrefl _)

/-- A body of up to 7 bytes is one frame (30_encoding.md R90). -/
theorem frameCount_single {L : Nat} (hpos : 0 < L) (h : L ≤ 7) : frameCount L = 1 := by
  rw [frameCount, if_neg (by omega), if_pos h]

/-- A longer one is a frame of 5 body bytes and frames of 7 (30_encoding.md R90). -/
theorem frameCount_multi {L : Nat} (h : 8 ≤ L) : frameCount L = 1 + (L + 1) / 7 := by
  rw [frameCount, if_neg (by omega), if_neg (by omega)]
  congr 2
  omega

theorem frameCount_pos {L : Nat} (h : 0 < L) : 0 < frameCount L := by
  by_cases hL : L ≤ 7
  · simp [frameCount_single h hL]
  · rw [frameCount_multi (by omega)]
    omega

theorem pos_of_lt_frameCount {L j : Nat} (h : j < frameCount L) : 0 < L := by
  by_contra hL
  obtain rfl : L = 0 := by omega
  exact absurd h (Nat.not_lt_zero j)

theorem place_zero (L : Nat) : place L 0 = 0 := by
  by_cases h : 0 < L
  · exact place_of_lt (frameCount_pos h)
  · rw [place, if_neg (fun h' => h (pos_of_lt_frameCount h'))]
    omega

/-- A body of up to 7 bytes has one frame, at the start. -/
theorem eq_zero_of_single {L j : Nat} (hj : j < frameCount L) (h : L ≤ 7) : j = 0 := by
  rw [frameCount_single (pos_of_lt_frameCount hj) h] at hj
  omega

theorem place_lt_length {L j : Nat} (hj : j < frameCount L) : place L j < L := by
  rw [place_of_lt hj]
  by_cases h : L ≤ 7
  · have := pos_of_lt_frameCount hj
    have := eq_zero_of_single hj h
    omega
  · rw [frameCount_multi (by omega)] at hj
    omega

theorem place_eq_zero_iff {L j : Nat} (hj : j < frameCount L) : place L j = 0 ↔ j = 0 := by
  rw [place_of_lt hj]
  omega

/-- After the first frame, the last frame is the one with 7 bytes left or fewer (R245, R246). -/
theorem succ_eq_frameCount_iff {L j : Nat} (hL : 8 ≤ L) (hj : j < frameCount L) :
    j + 1 = frameCount L ↔ L ≤ place L j + 7 ∧ j ≠ 0 := by
  rw [place_of_lt hj]
  rw [frameCount_multi hL] at hj ⊢
  omega

theorem place_succ_of_last {L j : Nat} (h : j + 1 = frameCount L) : place L (j + 1) = L := by
  rw [h, place_frameCount]

theorem succ_eq_frameCount_of_single {L j : Nat} (hj : j < frameCount L) (h : L ≤ 7) : j + 1 = frameCount L := by
  rw [eq_zero_of_single hj h, frameCount_single (pos_of_lt_frameCount hj) h]

/-- The first of several frames holds 5 body bytes (R244). -/
theorem place_succ_of_first {L : Nat} (h : 8 ≤ L) : place L (0 + 1) = 5 :=
  place_of_lt (by rw [frameCount_multi h]; omega)

/-- A frame between the first and the last holds 7 (R246). -/
theorem place_succ_of_middle {L j : Nat} (h : j + 1 < frameCount L) (hj : j ≠ 0) :
    place L (j + 1) = place L j + 7 := by
  rw [place_of_lt h, place_of_lt (by omega)]
  omega

theorem place_le_succ {L j : Nat} (hj : j < frameCount L) : place L j ≤ place L (j + 1) := by
  by_cases hlast : j + 1 = frameCount L
  · rw [place_succ_of_last hlast]
    exact (place_lt_length hj).le
  · rw [place_of_lt hj, place_of_lt (by omega)]
    omega

/-- The frames hold the body from place to place, so together all of it. -/
theorem flatten_parts (body : Bytes) (p : Nat → Nat) (h0 : p 0 = 0) {m : Nat} (hmono : ∀ j < m, p j ≤ p (j + 1)) :
    ((List.range m).map fun j => (body.drop (p j)).take (p (j + 1) - p j)).flatten = body.take (p m) := by
  induction m with
  | zero => simp [h0]
  | succ m ih =>
    have hm := hmono m (Nat.lt_succ_self m)
    rw [List.range_succ, List.map_append, List.flatten_append, ih fun j hj => hmono j (by omega)]
    simp only [List.map_cons, List.map_nil, List.flatten_cons, List.flatten_nil, List.append_nil]
    rw [← List.take_add, Nat.add_sub_cancel' hm]

/-! ### The frames of a transfer -/

/-- What stands before the body bytes in frame `j` of a body of `L` bytes: the CRC in the first of several frames. -/
def leadOf (crc : BitVec 16) (L j : Nat) : Bytes := if 8 ≤ L ∧ j = 0 then crcPrefix crc else []

/-- The body bytes of frame `j`. -/
def partOf (body : Bytes) (j : Nat) : Bytes :=
  (body.drop (place body.length j)).take (place body.length (j + 1) - place body.length j)

/-- Frame `j` of the transfer of a body (44_tx_encoder.md R248). -/
def transferFrame (id : BitVec 29) (crc : BitVec 16) (body : Bytes) (j : Nat) : Frame :=
  ⟨id, leadOf crc body.length j ++ partOf body j ++ [tailOf body.length j]⟩

theorem crcPrefix_eq (crc : BitVec 16) : crcPrefix crc = [crc.extractLsb 7 0, crc.extractLsb 15 8] := by
  rw [crcPrefix, BitVec.setWidth_ushiftRight_eq_extractLsb, BitVec.setWidth_eq_extractLsb' (by decide)]
  rfl

theorem leadOf_first {crc : BitVec 16} {L : Nat} (h : 8 ≤ L) : leadOf crc L 0 = crcPrefix crc := if_pos ⟨h, rfl⟩

theorem leadOf_single {crc : BitVec 16} {L j : Nat} (h : L ≤ 7) : leadOf crc L j = [] :=
  if_neg fun h' => absurd h'.1 (by omega)

theorem leadOf_later {crc : BitVec 16} {L j : Nat} (h : j ≠ 0) : leadOf crc L j = [] := if_neg fun h' => h h'.2

theorem flatten_partOf (body : Bytes) :
    ((List.range (frameCount body.length)).map (partOf body)).flatten = body := by
  refine (flatten_parts body (place body.length) (place_zero _) fun _ => place_le_succ).trans ?_
  rw [place_frameCount, List.take_length]

/-- A frame has room for the bytes from its place to the next, by which of the four kinds it is (R243 to R246). -/
theorem length_leadOf_add_le (crc : BitVec 16) {L j : Nat} (hj : j < frameCount L) :
    (leadOf crc L j).length + (place L (j + 1) - place L j) ≤ 7 := by
  by_cases hsingle : L ≤ 7
  · rw [leadOf_single hsingle, List.length_nil, place_succ_of_last (succ_eq_frameCount_of_single hj hsingle)]
    omega
  by_cases hfirst : j = 0
  · subst hfirst
    rw [leadOf_first (by omega), place_succ_of_first (by omega), place_zero]
    rfl
  rw [leadOf_later hfirst, List.length_nil]
  by_cases hlast : j + 1 = frameCount L
  · obtain ⟨hrest, -⟩ := (succ_eq_frameCount_iff (by omega) hj).mp hlast
    rw [place_succ_of_last hlast]
    omega
  · rw [place_succ_of_middle (by omega) hfirst]
    omega

/-- A frame holds its tail and up to 7 bytes before it (30_encoding.md R83). -/
theorem length_transferFrame (id : BitVec 29) (crc : BitVec 16) {body : Bytes} {j : Nat}
    (hj : j < frameCount body.length) :
    1 ≤ (transferFrame id crc body j).data.length ∧ (transferFrame id crc body j).data.length ≤ 8 := by
  have hroom := length_leadOf_add_le crc hj
  have hpart : (partOf body j).length ≤ place body.length (j + 1) - place body.length j := List.length_take_le ..
  simp only [transferFrame, List.length_append, List.length_singleton]
  omega

theorem payloadOf_transferFrame (id : BitVec 29) (crc : BitVec 16) (body : Bytes) (j : Nat) :
    payloadOf body.length j (transferFrame id crc body j) = partOf body j := by
  unfold payloadOf transferFrame leadOf
  simp only [List.dropLast_concat]
  split <;> rfl

/-! ### One `TX_NEXT` -/

/-- The TX unit stands before frame `j` of the transfer of `body`. -/
structure Sending (body : Bytes) (j : Nat) (t : TxUnit) : Prop where
  loaded : Loaded t body
  offset : t.offset.val = place body.length j
  toggle : j < frameCount body.length → t.toggle = decide (j % 2 = 1)

theorem txTail_single {L : Nat} (h : L ≤ 7) (j : Nat) : txTail true true false = tailOf L j := by
  rw [tailOf, if_pos h]
  rfl

theorem txTail_first {L : Nat} (h : 8 ≤ L) : txTail true false false = tailOf L 0 := by
  rw [tailOf, if_neg (by omega), if_pos rfl, if_neg (by rw [frameCount_multi h]; omega)]
  rfl

/-- The tails of R245 and R246: TOG is set in the frames of odd number. -/
theorem txTail_later {L j : Nat} (h : 8 ≤ L) (hj : j ≠ 0) :
    txTail false (decide (j + 1 = frameCount L)) (decide (j % 2 = 1)) = tailOf L j := by
  rw [tailOf, if_neg (by omega), if_neg hj]
  by_cases hlast : j + 1 = frameCount L <;> by_cases hodd : j % 2 = 1 <;> simp only [hlast, hodd] <;> rfl

theorem not_odd_eq_succ_odd (j : Nat) : (!decide (j % 2 = 1)) = decide ((j + 1) % 2 = 1) := by
  rw [← decide_not]
  exact decide_eq_decide.mpr (by omega)

/-- One frame of a transfer (44_tx_encoder.md R243 to R246). -/
theorem execTxNext_of_sending {s : State} {body : Bytes} {j : Nat} (h : Sending body j s.tx)
    (hj : j < frameCount body.length) :
    ∃ o g, execTxNext s =
        txEmit s (leadOf s.tx.crc body.length j) (place body.length (j + 1) - place body.length j)
          (tailOf body.length j) o g ∧
      Sending body (j + 1) { s.tx with offset := o, toggle := g } := by
  obtain ⟨hloaded, hoffset, htoggle⟩ := h
  have hlen : s.tx.len.val = body.length := hloaded.1.symm
  have hmore := place_lt_length hj
  replace htoggle := htoggle hj
  have hstart_iff : s.tx.offset = 0 ↔ j = 0 := by
    rw [← place_eq_zero_iff hj, ← hoffset]
    exact Fin.ext_iff
  obtain ⟨hdone, -⟩ | ⟨-, hstart, hsingle, heq⟩ | ⟨hstart, hmulti, heq⟩ | ⟨hstarted, -, hlast, heq⟩ |
    ⟨hstarted, hmid, heq⟩ := execTxNext_cases s
  case inl => omega
  case inr.inl => -- SINGLE (R243)
    rw [hlen] at hsingle
    obtain rfl := hstart_iff.mp hstart
    have hcount := succ_eq_frameCount_of_single hj hsingle
    have hend := place_succ_of_last hcount
    refine ⟨s.tx.len, s.tx.toggle, ?_, hloaded, hlen.trans hend.symm, fun h => absurd h (by omega)⟩
    rw [heq, hend, place_zero, leadOf_single hsingle, txTail_single hsingle 0, hlen, Nat.sub_zero]
  case inr.inr.inl => -- FIRST (R244)
    rw [hlen] at hmulti
    obtain rfl := hstart_iff.mp hstart
    have hfive := place_succ_of_first hmulti
    refine ⟨5, !s.tx.toggle, ?_, hloaded, hfive.symm, fun _ => by rw [htoggle, not_odd_eq_succ_odd]⟩
    rw [heq, hfive, place_zero, leadOf_first hmulti, txTail_first hmulti]
  all_goals
    have hj0 : j ≠ 0 := fun h => hstarted (hstart_iff.mpr h)
    have hmulti : 8 ≤ body.length := by
      by_contra h
      exact hj0 (eq_zero_of_single hj (by omega))
  case inr.inr.inr.inl => -- LAST (R245)
    have hcount := (succ_eq_frameCount_iff hmulti hj).mpr ⟨by omega, hj0⟩
    have hend := place_succ_of_last hcount
    refine ⟨s.tx.len, !s.tx.toggle, ?_, hloaded, hlen.trans hend.symm, fun h => absurd h (by omega)⟩
    rw [heq, hend, leadOf_later hj0, ← txTail_later hmulti hj0, htoggle, hlen, hoffset, decide_eq_true hcount]
  case inr.inr.inr.inr => -- MIDDLE (R246)
    have hcount : ¬ j + 1 = frameCount body.length := fun h => by
      have := (succ_eq_frameCount_iff hmulti hj).mp h
      omega
    have hseven := place_succ_of_middle (show j + 1 < frameCount body.length by omega) hj0
    refine ⟨⟨s.tx.offset.val + 7, by omega⟩, !s.tx.toggle, ?_, hloaded, ?_, fun _ => by
      rw [htoggle, not_odd_eq_succ_odd]⟩
    · rw [heq, hseven, leadOf_later hj0, ← txTail_later hmulti hj0, htoggle, decide_eq_false hcount,
        Nat.add_sub_cancel_left]
    · show s.tx.offset.val + 7 = _
      rw [hseven, hoffset]

/-- The bytes that a loaded TX unit reads are those of the body. -/
theorem readBytes_of_loaded {t : TxUnit} {body : Bytes} (h : Loaded t body) : t.buf.readBytes 0 body.length = body := by
  obtain ⟨hlen, hread⟩ := h
  refine readBytes_eq_iff.mpr ⟨rfl, fun k hk => ?_⟩
  rw [Nat.zero_add, hread k (hlen ▸ hk), at', List.getD_eq_getElem _ _ hk, List.getElem?_eq_getElem hk]

theorem readBytes_part {t : TxUnit} {body : Bytes} (h : Loaded t body) {j : Nat} (hj : j < frameCount body.length) :
    t.buf.readBytes (place body.length j) (place body.length (j + 1) - place body.length j) = partOf body j := by
  have hle := place_le_succ hj
  have hend : place body.length (j + 1) ≤ body.length := by
    by_cases hlast : j + 1 = frameCount body.length
    · exact (place_succ_of_last hlast).le
    · exact (place_lt_length (by omega)).le
  rw [readBytes_sub t.buf (n := body.length) (by omega), readBytes_of_loaded h, partOf]

/-- The state after one frame of a transfer: the frame is delivered, and the transfer stands before the next. -/
theorem execTxNext_frame {s : State} {body : Bytes} {j : Nat} (h : Sending body j s.tx)
    (hj : j < frameCount body.length) :
    ∃ t, execTxNext s = .next t ∧ t.result = .frame s.tx.id (transferFrame s.tx.id s.tx.crc body j).data ∧
      Sending body (j + 1) t.tx ∧ t.tx.id = s.tx.id ∧ t.tx.crc = s.tx.crc := by
  obtain ⟨o, g, hemit, hsending⟩ := execTxNext_of_sending h hj
  refine ⟨_, hemit, ?_, hsending, rfl, rfl⟩
  rw [setResult_result, h.offset, readBytes_part h.loaded hj]
  rfl

/-! ### `TX_NEXT` while `TX_HAS_NEXT` holds -/

theorem send_of_done {s : State} (h : s.tx.len.val ≤ s.tx.offset.val) (n : Nat) :
    (send n s).1 = [] ∧ (send n s).2.tx = s.tx := by
  cases n with
  | zero => exact ⟨rfl, rfl⟩
  | succ n =>
    have hdone : exec .txHasNext s = .next (s.setResult (.hasNext false)) := execTxHasNext_of_done h
    simp [send, hdone]

theorem send_of_more {s t : State} {id : BitVec 29} {d : Bytes} (h : s.tx.offset.val < s.tx.len.val)
    (hnext : execTxNext (s.setResult (.hasNext true)) = .next t) (ht : t.result = .frame id d) (n : Nat) :
    send (n + 1) s = (⟨id, d⟩ :: (send n t).1, (send n t).2) := by
  have hmore : exec .txHasNext s = .next (s.setResult (.hasNext true)) := execTxHasNext_of_more h
  have hframe : exec .txNext (s.setResult (.hasNext true)) = .next t := hnext
  simp [send, hmore, hframe, ht]

/-- From before frame `j` on, the frames left are emitted, and nothing else. -/
theorem send_of_sending {s : State} {body : Bytes} {j m n : Nat} (h : Sending body j s.tx)
    (hm : j + m = frameCount body.length) (hn : m ≤ n) :
    (send n s).1 = (List.range' j m).map (transferFrame s.tx.id s.tx.crc body) ∧
      Sending body (frameCount body.length) (send n s).2.tx := by
  induction m generalizing j n s with
  | zero =>
    obtain rfl : j = frameCount body.length := hm
    have hdone : s.tx.len.val ≤ s.tx.offset.val := by rw [h.offset, place_frameCount, h.loaded.1]
    obtain ⟨hframes, htx⟩ := send_of_done hdone n
    exact ⟨hframes, htx.symm ▸ h⟩
  | succ m ih =>
    obtain ⟨n, rfl⟩ : ∃ k, n = k + 1 := ⟨n - 1, by omega⟩
    have hj : j < frameCount body.length := by omega
    have hmore : s.tx.offset.val < s.tx.len.val := by
      rw [h.offset, ← h.loaded.1]
      exact place_lt_length hj
    obtain ⟨t, hnext, hframe, hsending, hid, hcrc⟩ := execTxNext_frame (s := s.setResult (.hasNext true)) h hj
    obtain ⟨hframes, hend⟩ := ih hsending (by omega : j + 1 + m = _) (by omega : m ≤ n)
    rw [send_of_more hmore hnext hframe]
    refine ⟨?_, hend⟩
    rw [hframes, hid, hcrc, List.range'_succ, List.map_cons]
    rfl

theorem frameCount_le {L : Nat} (h : L ≤ 64) : frameCount L ≤ 65 := by
  unfold frameCount
  split_ifs <;> omega

/-- A loaded transfer is emitted as its frames, and is over then. -/
theorem send_of_loaded {s : State} {body : Bytes} (hloaded : Loaded s.tx body) (hoffset : s.tx.offset.val = 0)
    (htoggle : s.tx.toggle = false) :
    (send 65 s).1 = (List.range (frameCount body.length)).map (transferFrame s.tx.id s.tx.crc body) ∧
      Sending body (frameCount body.length) (send 65 s).2.tx := by
  have hstart : Sending body 0 s.tx := ⟨hloaded, hoffset.trans (place_zero _).symm, fun _ => htoggle⟩
  have hlen : body.length ≤ 64 := hloaded.1 ▸ Nat.le_of_lt_succ s.tx.len.isLt
  rw [List.range_eq_range']
  exact send_of_sending hstart (Nat.zero_add _) (frameCount_le hlen)

/-! ### The obligation -/

/-- Settles O36, by induction over the frames left (`send_of_sending`). -/
theorem txSequence : Obligations.TxSequence := by
  intro s body hloaded hoffset htoggle
  obtain ⟨hframes, hend⟩ := send_of_loaded hloaded hoffset htoggle
  dsimp only
  rw [hframes]
  refine ⟨by simp, fun f hf => ?_, fun j hj => ?_, ?_, fun hL => ?_, execTxHasNext_of_done ?_⟩
  · obtain ⟨j, hj, rfl⟩ := List.mem_map.mp hf
    exact ⟨rfl, length_transferFrame _ _ (List.mem_range.mp hj)⟩
  · simp [hj, transferFrame]
  · simpa [List.zipWith_map_right, payloadOf_transferFrame] using flatten_partOf body
  · have hpos := frameCount_pos (show 0 < body.length by omega)
    simp [hpos, transferFrame, leadOf_first hL, crcPrefix_eq]
  · rw [hend.offset, place_frameCount, ← hend.loaded.1]

end Sys2Proof.Proofs
end

section
/-! SUPPORT. The family of 30_encoding.md, frames as they reach the RX unit: what their identifier (R91, R92) and their tail
byte (R89) say of what `RX_FRAME` does with them. -/

namespace Sys2Proof.Proofs

open Sys2Proof.Machine Sys2Proof.Claims

/-! ### Identifier rows: completion, and the message delivered -/

/-- An answer that, if it is a message, has the identifier `id` and its message_type (45_rx_decoder.md R277). -/
def Carries (id : BitVec 29) (m : Option ReceivedMessage) : Prop :=
  ∀ y, m = some y → y.msg.mt = messageTypeOfId id ∧ y.id = id

/-- An outcome of the RX unit at `s`: it completes, writes the slots and the result alone, and answers for `id`. -/
def Answers (s : State) (id : BitVec 29) (o : Outcome) : Prop :=
  ∃ rx m, o = .next ((s.setRx rx).setResult (.received m)) ∧ Carries id m

theorem carries_none (id : BitVec 29) : Carries id none := nofun

theorem carries_decoded (p : Config.Params) (id : BitVec 29) (body : Bytes) (c : BitVec 16) :
    Carries id ((decodeMessage p (messageTypeOfId id) body).map fun m => { id := id, crc := c, msg := m }) := by
  intro y hy
  obtain ⟨m, hm, rfl⟩ := Option.map_eq_some_iff.mp hy
  obtain ⟨rfl, -⟩ := decodeMessage_some hm
  exact ⟨rfl, rfl⟩

theorem complete_answers (s : State) (k : Fin 8) : Answers s (slotAt s.rx k).id (complete s k) := by
  refine ⟨_, _, complete_eq s k, ?_⟩
  split
  · exact carries_decoded _ _ _ _
  · exact carries_none _

theorem handleOwn_answers (s : State) (k : Fin 8) (d : Bytes) (tail : Byte) :
    Answers s (slotAt s.rx k).id (handleOwn s k d tail) := by
  obtain ⟨-, h⟩ | ⟨-, -, -, h⟩ | ⟨-, -, hfits, ⟨-, h⟩ | ⟨-, h⟩⟩ := handleOwn_cases s k d tail <;> rw [h]
  · exact ⟨_, _, rfl, carries_none _⟩
  · exact ⟨_, _, rfl, carries_none _⟩
  · obtain ⟨rx, m, heq, hm⟩ := complete_answers (s.setRx (setSlot s.rx k (appended (slotAt s.rx k) d hfits))) k
    rw [setRx_rx, setSlot_get_self] at hm
    exact ⟨rx, m, heq, hm⟩
  · exact ⟨_, _, rfl, carries_none _⟩

theorem handle_answers (s : State) (k : Fin 8) (id : BitVec 29) (d : Bytes) (tail : Byte) (ts : BitVec 64)
    (h : d.length ≤ 8) : Answers s id (handle s k id d tail ts h) := by
  obtain ⟨-, heq⟩ | ⟨-, rfl, heq⟩ | ⟨-, -, heq⟩ := handle_cases s k id d tail ts h <;> rw [heq]
  · exact ⟨_, _, rfl, carries_none _⟩
  · exact handleOwn_answers s k d tail
  · exact ⟨_, _, rfl, carries_none _⟩

/-- A frame of up to 8 data bytes completes, and a message it delivers is of its own identifier (R261). -/
theorem receiveFrame_answers (idIn : BitVec 32) {d : Bytes} (hlen : d.length ≤ 8) (ts : BitVec 64) (s : State) :
    Answers s (idIn.setWidth 29) (receiveFrame idIn d ts s) := by
  obtain ⟨hlong, -⟩ | ⟨-, -, h⟩ | ⟨-, _, tail, -, ⟨-, -, h⟩ | ⟨-, h⟩⟩ := receiveFrame_cases idIn d ts s
  · omega
  all_goals rw [h]
  · exact ⟨_, _, rfl, carries_none _⟩
  · refine ⟨_, _, receiveSingle_eq .., ?_⟩
    split
    · exact carries_none _
    · exact carries_decoded _ _ _ _
  · exact handle_answers ..

/-- A frame of the log channel is ignored (30_encoding.md R92, 45_rx_decoder.md R263). -/
theorem receiveFrame_log {idIn : BitVec 32} {d : Bytes} (hlen : d.length ≤ 8)
    (hlog : messageTypeOfId (idIn.setWidth 29) = Config.mtLog) (ts : BitVec 64) (s : State) :
    receiveFrame idIn d ts s = .next (s.setResult (.received none)) := by
  obtain ⟨hlong, -⟩ | ⟨-, -, h⟩ | ⟨hother, -⟩ := receiveFrame_cases idIn d ts s
  · omega
  · exact h
  · exact absurd hlog hother

/-- The message_type of a masked identifier is that of the identifier word (R81, 45_rx_decoder.md R262). -/
theorem messageTypeOfId_setWidth (id : BitVec 32) : messageTypeOfId (id.setWidth 29) = identMessageType id := by
  apply BitVec.eq_of_getLsbD_eq
  intro i hi
  simp [messageTypeOfId, identMessageType, hi, show 18 + i < 29 by omega]

theorem exec_identRow {row : IdentFields → Bytes → BitVec 64 → Instr} {mt : BitVec 8} (hrow : (row, mt) ∈ identRows)
    (x : IdentFields) (d : Bytes) (ts : BitVec 64) (s : State) :
    exec (row x d ts) s = receiveFrame (identWord mt x) d ts s := by
  fin_cases hrow <;> rfl

/-- Settles O53: each row is `RX_FRAME` of a frame with its identifier, which answers for that identifier. -/
theorem identRowsAreRxFrames : Obligations.IdentRowsAreRxFrames := by
  rintro ⟨row, mt⟩ hrow x d ts
  refine ⟨decode_identRequest hrow x d ts, fun s => ⟨exec_identRow hrow x d ts s, fun _ hlen => ?_, fun hlog hlen => ?_⟩⟩
  · obtain ⟨rx, m, heq, hm⟩ := receiveFrame_answers (identWord mt x) hlen ts s
    rw [Carries, messageTypeOfId_setWidth, identMessageType_identWord] at hm
    exact ⟨_, (exec_identRow hrow x d ts s).trans heq, rfl, m, rfl, hm⟩
  · refine (exec_identRow hrow x d ts s).trans (receiveFrame_log hlen ?_ ts s)
    rw [messageTypeOfId_setWidth, identMessageType_identWord]
    exact hlog

/-! ### A frame and the slot that `LOOKUP` selects -/

/-- Where the identifier has a slot, `LOOKUP` selects it (R267), for there is no other (10_state.md R36 (b)). -/
theorem lookup_of_owns {s : State} {k : Fin 8} {id : BitVec 29} (hs : s.Inv) (h : Owns s k id) :
    lookup s.rx id = k := by
  have hk : holds s.rx k id = true := (holds_iff ..).mpr h
  obtain hown | ⟨hnone, -⟩ | ⟨hnone, -⟩ := lookup_cases s.rx id
  · obtain ⟨hocc, hid⟩ := (holds_iff ..).mp hown
    exact hs.2.2 _ k hocc h.1 (hid.trans h.2.symm)
  · simp [hnone k] at hk
  · simp [hnone k] at hk

/-- Clearing an empty slot changes nothing. -/
theorem clearSlot_of_empty {rx : RxUnit} {k : Fin 8} (h : (slotAt rx k).occ = false) : clearSlot rx k = rx := by
  refine rx_ext fun j => ?_
  rw [clearSlot_get]
  split
  next hj =>
    subst hj
    rw [Slot.clear, ← h]
  next => rfl

theorem handle_of_owns {s : State} {k : Fin 8} {id : BitVec 29} (h : Owns s k id) (d : Bytes) (tail : Byte)
    (ts : BitVec 64) (hd : d.length ≤ 8) : handle s k id d tail ts hd = handleOwn s k d tail := by
  rw [handle, if_pos h.1, if_pos h.2]

/-- A frame at a slot that is not its own finds it empty, or it is cleared first (R269, R270, R276). -/
theorem handle_of_not_owns {s : State} {k : Fin 8} {id : BitVec 29} (h : ¬ Owns s k id) (d : Bytes) (tail : Byte)
    (ts : BitVec 64) (hd : d.length ≤ 8) :
    handle s k id d tail ts hd =
      .next ((s.setRx (handleEmpty (clearSlot s.rx k) k id d tail ts hd)).setResult (.received none)) := by
  obtain ⟨hempty, heq⟩ | ⟨hocc, hid, -⟩ | ⟨-, -, heq⟩ := handle_cases s k id d tail ts hd
  · rw [heq, clearSlot_of_empty hempty]
  · exact absurd ⟨hocc, hid⟩ h
  · exact heq

/-- A frame changes the slot that `LOOKUP` selects and the result, and nothing else. -/
theorem receiveFrame_onlySlot {idIn : BitVec 32} {d : Bytes} {ts : BitVec 64} {s t : State}
    (ht : receiveFrame idIn d ts s = .next t) : OnlySlot s t (lookup s.rx (idIn.setWidth 29)) := by
  have hothers : ∀ j, j ≠ lookup s.rx (idIn.setWidth 29) → slotAt t.rx j = slotAt s.rx j := by
    obtain hsame | ⟨-, hconfined⟩ := receiveFrame_confined ht
    · exact fun j _ => by rw [hsame]
    · exact hconfined.others
  obtain ⟨rx, m, rfl⟩ := receiveFrame_next ht
  exact ⟨rfl, rfl, rfl, hothers⟩

/-- The toggle of R271 is the model's. -/
theorem expected_eq_expectedToggle (p : Config.Params) (len : Nat) : expected p len = expectedToggle p len := rfl

/-! ### Frames by their tail byte -/

theorem frameBody_concat (body : Bytes) (tail : Byte) : frameBody (body ++ [tail]) = body := List.dropLast_concat

section
variable {idIn : BitVec 32} {body : Bytes} {tail : Byte} {ts : BitVec 64} {s : State}

theorem length_concat_le (hlen : body.length ≤ 7) : (body ++ [tail]).length ≤ 8 := by
  rw [List.length_append, List.length_singleton]
  omega

/-- What is left of R261 for a frame that has a tail byte, is not too long and not of the log channel. -/
theorem receiveFrame_concat_cases (hlen : body.length ≤ 7) (hlog : mtOf (idIn.setWidth 29) ≠ 255) :
    (tailSot tail = true ∧ tailEot tail = true ∧
      receiveFrame idIn (body ++ [tail]) ts s = receiveSingle s (idIn.setWidth 29) (body ++ [tail]) tail) ∨
    ((tailSot tail && tailEot tail) = false ∧
      receiveFrame idIn (body ++ [tail]) ts s =
        handle s (lookup s.rx (idIn.setWidth 29)) (idIn.setWidth 29) (body ++ [tail]) tail ts (length_concat_le hlen)) := by
  have hle := length_concat_le (tail := tail) hlen
  obtain ⟨hlong, -⟩ | ⟨-, hfiltered | hempty, -⟩ | ⟨-, _, last, hlast, h⟩ :=
    receiveFrame_cases idIn (body ++ [tail]) ts s
  · omega
  · exact absurd (messageTypeOfId_eq_mtOf _ ▸ hfiltered) hlog
  · exact absurd hempty (by simp)
  · obtain rfl : tail = last := by simpa using hlast
    exact h

/-- A single frame (R266). -/
theorem receiveFrame_single (hlen : body.length ≤ 7) (hlog : mtOf (idIn.setWidth 29) ≠ 255)
    (hsot : tailSot tail = true) (heot : tailEot tail = true) :
    receiveFrame idIn (body ++ [tail]) ts s = .next (s.setResult (.received
      (if tailTog tail then none
       else (decodeMessage s.params (mtOf (idIn.setWidth 29)) body).map fun m =>
         { id := idIn.setWidth 29, crc := crc16 body, msg := m }))) := by
  obtain ⟨-, -, h⟩ | ⟨h, -⟩ := receiveFrame_concat_cases (tail := tail) (ts := ts) (s := s) hlen hlog
  · rw [h, receiveSingle_eq, frameBody_concat, messageTypeOfId_eq_mtOf]
    rfl
  · simp [hsot, heot] at h

/-- A frame that is not single, of an identifier with a slot of its own. -/
theorem receiveFrame_of_owns (hs : s.Inv) (hlen : body.length ≤ 7) (hlog : mtOf (idIn.setWidth 29) ≠ 255)
    (hmulti : (tailSot tail && tailEot tail) = false) {k : Fin 8} (hk : Owns s k (idIn.setWidth 29)) :
    receiveFrame idIn (body ++ [tail]) ts s = handleOwn s k (body ++ [tail]) tail := by
  obtain ⟨hsot, heot, -⟩ | ⟨-, h⟩ := receiveFrame_concat_cases (tail := tail) (ts := ts) (s := s) hlen hlog
  · simp [hsot, heot] at hmulti
  · rw [h, lookup_of_owns hs hk, handle_of_owns hk]

/-- A frame that is not single, of an identifier with no slot. -/
theorem receiveFrame_of_not_owns (hlen : body.length ≤ 7) (hlog : mtOf (idIn.setWidth 29) ≠ 255)
    (hmulti : (tailSot tail && tailEot tail) = false) (hnone : ∀ k, ¬ Owns s k (idIn.setWidth 29)) :
    receiveFrame idIn (body ++ [tail]) ts s =
      .next ((s.setRx (handleEmpty (clearSlot s.rx (lookup s.rx (idIn.setWidth 29))) (lookup s.rx (idIn.setWidth 29))
        (idIn.setWidth 29) (body ++ [tail]) tail ts (length_concat_le hlen))).setResult (.received none)) := by
  obtain ⟨hsot, heot, -⟩ | ⟨-, h⟩ := receiveFrame_concat_cases (tail := tail) (ts := ts) (s := s) hlen hlog
  · simp [hsot, heot] at hmulti
  · rw [h, handle_of_not_owns (hnone _)]

end

/-! ### The slot after a frame of each kind -/

/-- A frame with SOT is no continuation (R272). -/
theorem handleOwn_of_sot {s : State} {k : Fin 8} {d : Bytes} {tail : Byte} (h : tailSot tail = true) :
    handleOwn s k d tail = .next (s.setResult (.received none)) := by
  rw [handleOwn, if_pos (.inr h)]
  rfl

/-- Only a frame without SOT, of the toggle expected, ends a transfer; it leaves the slot empty (R273, R275). -/
theorem handleOwn_of_eot {s t : State} {k : Fin 8} {d : Bytes} {tail : Byte} (ht : handleOwn s k d tail = .next t)
    (hsot : tailSot tail = false) (heot : tailEot tail = true)
    (htog : tailTog tail = expectedToggle s.params (slotAt s.rx k).len) : (slotAt t.rx k).occ = false := by
  obtain ⟨hpoliced, -⟩ | ⟨-, -, -, h⟩ | ⟨-, -, hfits, ⟨-, h⟩ | ⟨hnot, -⟩⟩ := handleOwn_cases s k d tail
  · simp [htog, hsot] at hpoliced
  · rw [h] at ht
    cases ht
    simp
  · rw [h, complete_eq] at ht
    cases ht
    simp
  · simp [heot] at hnot

/-- A continuation that does not end the transfer delivers nothing; if it is accepted, the slot has grown (R274). -/
theorem handleOwn_of_not_eot {s t : State} {k : Fin 8} {d : Bytes} {tail : Byte} (ht : handleOwn s k d tail = .next t)
    (heot : tailEot tail = false) :
    t.result = .received none ∧
      (tailSot tail = false → tailTog tail = expectedToggle s.params (slotAt s.rx k).len →
        ∀ hfits : (slotAt s.rx k).len.val + (d.length - 1) ≤ 256,
          slotAt t.rx k = appended (slotAt s.rx k) d hfits) := by
  obtain ⟨hpoliced, h⟩ | ⟨-, -, hover, h⟩ | ⟨-, -, hfits, ⟨hends, -⟩ | ⟨-, h⟩⟩ := handleOwn_cases s k d tail
  · rw [h] at ht
    cases ht
    exact ⟨rfl, fun hsot htog => by simp [htog, hsot] at hpoliced⟩
  · rw [h] at ht
    cases ht
    exact ⟨rfl, fun _ _ hfits => by omega⟩
  · simp [heot] at hends
  · rw [h] at ht
    cases ht
    exact ⟨rfl, fun _ _ _ => by simp⟩

/-- The two CRC bytes, low byte first (20_memory.md R57). -/
theorem toNat_append_byte (hi lo : Byte) : (hi ++ lo).toNat = lo.toNat + 256 * hi.toNat := by
  rw [BitVec.toNat_append, ← Nat.shiftLeft_add_eq_or_of_lt lo.isLt, Nat.shiftLeft_eq]
  omega

/-- What a slot is opened with (R269), whether it was empty or has just been cleared. -/
theorem opened_setSlot {s : State} (k : Fin 8) (id : BitVec 29) (c0 c1 : Byte) (rest : Bytes) (tail : Byte)
    (ts : BitVec 64) (h : ([c0, c1] ++ rest ++ [tail]).length ≤ 8) :
    Opened s ((s.setRx (setSlot (clearSlot s.rx k) k
      (openedSlot (slotAt (clearSlot s.rx k) k) id ([c0, c1] ++ rest ++ [tail]) ts h))).setResult (.received none))
      k id ts c0 c1 rest := by
  have hrest : (frameBody ([c0, c1] ++ rest ++ [tail])).drop 2 = rest := by rw [frameBody_concat]; rfl
  refine ⟨rfl, ⟨rfl, rfl, rfl, fun j hj => ?_⟩, ?_⟩
  · simp [setSlot_get_of_ne _ _ hj, clearSlot_get, hj]
  · simp only [Owns, setResult_rx, setRx_rx, setSlot_get_self, openedSlot, hrest, clearSlot_get_self, clear_buf,
      read_writeBytes, and_self, true_and]
    refine ⟨toNat_append_byte c1 c0, by simp, fun x hx => ?_, fun x hx => ?_⟩
    · rw [if_pos ⟨Nat.zero_le x, by omega⟩]
      rfl
    · rw [if_neg (by omega)]

/-! ### The six rows of R89 -/

section
variable {r : BitVec 5} {idIn : BitVec 32} {body : Bytes} {ts : BitVec 64} {s : State}

theorem execFrameSingle_decodes (hlen : body.length ≤ 7) (hlog : mtOf (idIn.setWidth 29) ≠ 255) :
    execFrameSingle r idIn body ts s = .next (s.setResult (.received
      ((decodeMessage s.params (mtOf (idIn.setWidth 29)) body).map fun m =>
        { id := idIn.setWidth 29, crc := crc16 body, msg := m }))) := by
  refine (receiveFrame_single hlen hlog (by simp) (by simp)).trans ?_
  simp

theorem execFrameSingleBadtog_rejects (hlen : body.length ≤ 7) (hlog : mtOf (idIn.setWidth 29) ≠ 255) :
    execFrameSingleBadtog r idIn body ts s = .next (s.setResult (.received none)) := by
  refine (receiveFrame_single hlen hlog (by simp) (by simp)).trans ?_
  simp

/-- Dropped at its own slot (R272), else opening one (R269). -/
theorem execFrameFirst_opens (hs : s.Inv) (hlen : body.length ≤ 7) (hlog : mtOf (idIn.setWidth 29) ≠ 255) :
    ∃ t, execFrameFirst r idIn body ts s = .next t ∧ t.result = .received none ∧
      ((∃ k, Owns s k (idIn.setWidth 29)) → t.rx = s.rx) ∧
      ((∀ k, ¬ Owns s k (idIn.setWidth 29)) → 4 ≤ body.length + 1 →
        ∃ k c0 c1 rest, body = [c0, c1] ++ rest ∧ Opened s t k (idIn.setWidth 29) ts c0 c1 rest) := by
  by_cases hown : ∃ k, Owns s k (idIn.setWidth 29)
  · obtain ⟨k, hk⟩ := hown
    refine ⟨_, (receiveFrame_of_owns hs hlen hlog (by simp) hk).trans (handleOwn_of_sot (by simp)), rfl, fun _ => rfl,
      fun hnone => absurd hk (hnone k)⟩
  · have hnone : ∀ k, ¬ Owns s k (idIn.setWidth 29) := fun k hk => hown ⟨k, hk⟩
    refine ⟨_, receiveFrame_of_not_owns hlen hlog (by simp) hnone, rfl, fun h => absurd h hown, fun _ hmin => ?_⟩
    obtain ⟨c0, c1, rest, rfl⟩ : ∃ c0 c1 rest, body = [c0, c1] ++ rest := by
      match body, hmin with
      | c0 :: c1 :: rest, _ => exact ⟨c0, c1, rest, rfl⟩
    refine ⟨lookup s.rx (idIn.setWidth 29), c0, c1, rest, rfl, ?_⟩
    rw [handleEmpty, if_pos ((isOpening_iff ..).mpr ⟨by simp, by simp, by simp, by simpa using hmin⟩)]
    exact opened_setSlot ..

/-- Dropped at its own slot (R272), else leaving empty the slot that `LOOKUP` selects (R270, R276). -/
theorem execFrameFirstBadtog_never_opens (hs : s.Inv) (hlen : body.length ≤ 7) (hlog : mtOf (idIn.setWidth 29) ≠ 255) :
    ∃ t, execFrameFirstBadtog r idIn body ts s = .next t ∧ t.result = .received none ∧
      ∀ k : Fin 8, (slotAt t.rx k).occ = true → slotAt t.rx k = slotAt s.rx k := by
  by_cases hown : ∃ k, Owns s k (idIn.setWidth 29)
  · obtain ⟨k, hk⟩ := hown
    exact ⟨_, (receiveFrame_of_owns hs hlen hlog (by simp) hk).trans (handleOwn_of_sot (by simp)), rfl, fun _ _ => rfl⟩
  · refine ⟨_, receiveFrame_of_not_owns hlen hlog (by simp) fun k hk => hown ⟨k, hk⟩, rfl, fun k hocc => ?_⟩
    have hclosed : ¬ isOpening (body ++ [tailByte true false true r]) (tailByte true false true r) = true := by
      simp [isOpening]
    rw [setResult_rx, setRx_rx, handleEmpty, if_neg hclosed, clearSlot_get] at hocc ⊢
    split at hocc
    · simp at hocc
    next hk => rw [if_neg hk]

theorem execFrameMiddle_continues (tog : Bool) (hs : s.Inv) (hlen : body.length ≤ 7)
    (hlog : mtOf (idIn.setWidth 29) ≠ 255) :
    ∃ t, execFrameMiddle tog r idIn body ts s = .next t ∧ t.result = .received none ∧
      ∀ k, Owns s k (idIn.setWidth 29) → tog = expected s.params (slotAt s.rx k).len →
        (slotAt s.rx k).len.val + body.length ≤ 256 →
        OnlySlot s t k ∧ Owns t k (idIn.setWidth 29) ∧
          (slotAt t.rx k).len.val = (slotAt s.rx k).len.val + body.length := by
  by_cases hown : ∃ k, Owns s k (idIn.setWidth 29)
  · obtain ⟨k, hk⟩ := hown
    obtain ⟨rx, m, ht, -⟩ := receiveFrame_answers idIn (length_concat_le (tail := tailByte false false tog r) hlen) ts s
    obtain ⟨hresult, hgrown⟩ :=
      handleOwn_of_not_eot ((receiveFrame_of_owns hs hlen hlog (by simp) hk).symm.trans ht) (by simp)
    refine ⟨_, ht, hresult, fun k' hk' htog hfits => ?_⟩
    obtain rfl : k' = k := (lookup_of_owns hs hk').symm.trans (lookup_of_owns hs hk)
    have hslot := hgrown (by simp) (by rw [tailTog_tailByte, htog, expected_eq_expectedToggle]) (by simpa using hfits)
    refine ⟨lookup_of_owns hs hk ▸ receiveFrame_onlySlot ht, ?_⟩
    rw [Owns, hslot]
    exact ⟨hk, by simp [appended]⟩
  · exact ⟨_, receiveFrame_of_not_owns hlen hlog (by simp) fun k hk => hown ⟨k, hk⟩, rfl,
      fun k hk => absurd ⟨k, hk⟩ hown⟩

theorem execFrameLast_ends (tog : Bool) (hs : s.Inv) (hlen : body.length ≤ 7)
    (hlog : mtOf (idIn.setWidth 29) ≠ 255) :
    ∃ t m, execFrameLast tog r idIn body ts s = .next t ∧ t.result = .received m ∧
      ((∀ k, ¬ Owns s k (idIn.setWidth 29)) → m = none) ∧
      ∀ k, Owns s k (idIn.setWidth 29) → tog = expected s.params (slotAt s.rx k).len →
        OnlySlot s t k ∧ (slotAt t.rx k).occ = false := by
  by_cases hown : ∃ k, Owns s k (idIn.setWidth 29)
  · obtain ⟨k, hk⟩ := hown
    obtain ⟨rx, m, ht, -⟩ := receiveFrame_answers idIn (length_concat_le (tail := tailByte false true tog r) hlen) ts s
    refine ⟨_, m, ht, rfl, fun hnone => absurd hk (hnone k), fun k' hk' htog => ?_⟩
    obtain rfl : k' = k := (lookup_of_owns hs hk').symm.trans (lookup_of_owns hs hk)
    exact ⟨lookup_of_owns hs hk ▸ receiveFrame_onlySlot ht,
      handleOwn_of_eot ((receiveFrame_of_owns hs hlen hlog (by simp) hk).symm.trans ht) (by simp) (by simp)
        (by rw [tailTog_tailByte, htog, expected_eq_expectedToggle])⟩
  · exact ⟨_, none, receiveFrame_of_not_owns hlen hlog (by simp) fun k hk => hown ⟨k, hk⟩, rfl, fun _ => rfl,
      fun k hk => absurd ⟨k, hk⟩ hown⟩

end

/-- Settles O38, row by row, by whether the identifier has a slot. -/
theorem frameRowsComplete : Obligations.FrameRowsComplete := fun _ _ body _ s hs hlen hlog =>
  ⟨⟨decodeMessage s.params _ body, crc16 body, rfl, rfl, execFrameSingle_decodes hlen hlog⟩,
    execFrameSingleBadtog_rejects hlen hlog, execFrameFirst_opens hs hlen hlog,
    execFrameFirstBadtog_never_opens hs hlen hlog, fun tog => execFrameMiddle_continues tog hs hlen hlog,
    fun tog => execFrameLast_ends tog hs hlen hlog⟩

end Sys2Proof.Proofs
end

section
/-! SUPPORT. The family of 40_bit_io.md: the bit I/O operations answer inside their operand buffer and are refused outside
it, a fixed-width operation is one of a field at a byte boundary, and what was written is read back. -/

namespace Sys2Proof.Proofs

open Sys2Proof.Machine Sys2Proof.Claims

/-! ### An ignored `sel` (30_encoding.md R99) -/

theorem decodeCmd_ignoring {c : BitVec 6} (hc : ignoresSel c = true) (sel sel' : BitVec 8) (ops : Bundle) :
    decodeCmd (cmdWord c sel) ops = decodeCmd (cmdWord c sel') ops := by
  simp only [decodeCmd, cmdOf_cmdWord]
  have hmem := of_decide_eq_true hc
  fin_cases hmem <;> rfl

/-- The bundle that the encoder writes goes with every `sel`. -/
theorem selects_of_ignoresSel {c : BitVec 6} {i : Instr} (hc : ignoresSel c = true)
    (hword : (encode i).word = .cmd (cmdWord c 0)) (hi : i.wellFormed = true) (sel : BitVec 8) : Selects c sel i := by
  refine ⟨(encode i).ops, ?_⟩
  calc decode ⟨.cmd (c ++ sel), (encode i).ops⟩
      = decode ⟨.cmd (cmdWord c 0), (encode i).ops⟩ := decodeCmd_ignoring hc sel 0 _
    _ = decode (encode i) := by rw [← hword]
    _ = .ok i := decode_encode i hi

/-! ### Inside an operand buffer, and outside it -/

/-- What an operation on `n` bytes at index `i` does whose result is `r`. -/
def answerBytes (B : Bytes) (i n : Nat) (r : Result) (s : State) : Outcome :=
  if i + n > B.length then .refused .outsideBuffer else s.deliver r

/-- What an operation on `w` bits at bit offset `o` does whose result is `r`. -/
def answerField (B : Bytes) (o w : Nat) (r : Result) (s : State) : Outcome :=
  if !bitWidthOk w then .refused .badWidth
  else if o + w > 8 * B.length then .refused .outsideBuffer
  else s.deliver r

theorem exec_putBits (B : Bytes) (o w v : Nat) (s : State) :
    exec (.putBits B o w v) s = answerField B o w (.bytes (putField B o w v)) s := rfl

theorem exec_getBits (B : Bytes) (o w : Nat) (s : State) :
    exec (.getBits B o w) s = answerField B o w (.bits w (getBitsLoop B o w)) s := rfl

section
variable {B : Bytes} {i n o w : Nat}

theorem answerBytes_outside (h : B.length < i + n) (r : Result) (s : State) :
    answerBytes B i n r s = .refused .outsideBuffer := if_pos h

theorem answerBytes_inside (h : i + n ≤ B.length) (r : Result) (s : State) :
    answerBytes B i n r s = .next (s.setResult r) := if_neg (Nat.not_lt.mpr h)

theorem bitWidthOk_iff : bitWidthOk w = true ↔ 1 ≤ w ∧ w ≤ 64 := by simp [bitWidthOk]

theorem answerField_badWidth (h : w < 1 ∨ 64 < w) (r : Result) (s : State) :
    answerField B o w r s = .refused .badWidth := by
  have hw : ¬ bitWidthOk w = true := fun hok => by have := bitWidthOk_iff.mp hok; omega
  simp [answerField, hw]

theorem answerField_of_width (h₁ : 1 ≤ w) (h₆₄ : w ≤ 64) (r : Result) (s : State) :
    answerField B o w r s = if o + w > 8 * B.length then .refused .outsideBuffer else s.deliver r := by
  simp [answerField, bitWidthOk_iff.mpr ⟨h₁, h₆₄⟩]

theorem answerField_outside (h₁ : 1 ≤ w) (h₆₄ : w ≤ 64) (h : 8 * B.length < o + w) (r : Result) (s : State) :
    answerField B o w r s = .refused .outsideBuffer := (answerField_of_width h₁ h₆₄ r s).trans (if_pos h)

theorem answerField_inside (h₁ : 1 ≤ w) (h₆₄ : w ≤ 64) (h : o + w ≤ 8 * B.length) (r : Result) (s : State) :
    answerField B o w r s = .next (s.setResult r) :=
  (answerField_of_width h₁ h₆₄ r s).trans (if_neg (Nat.not_lt.mpr h))

/-- The test on bytes is the test on bits at a byte boundary (40_bit_io.md R134). -/
theorem answerBytes_eq_answerField (hn : 1 ≤ n) (hn8 : n ≤ 8) (r : Result) (s : State) :
    answerBytes B i n r s = answerField B (8 * i) (8 * n) r s := by
  by_cases h : i + n ≤ B.length
  · rw [answerBytes_inside h, answerField_inside (by omega) (by omega) (by omega)]
  · rw [answerBytes_outside (by omega), answerField_outside (by omega) (by omega) (by omega)]

end

/-! ### The five widths -/

/-- `put` and `get` are the operations of one fixed width, `n` bytes, with results of the form `res`. -/
structure FixedWidth {w : Nat} (n : Nat) (put : Bytes → Nat → BitVec w → Instr) (get : Bytes → Nat → Instr)
    (res : BitVec w → Result) : Prop where
  width : w = 8 * n
  pos : 1 ≤ n
  le : n ≤ 8
  exec_put : ∀ B i v s, exec (put B i v) s = answerBytes B i n (.bytes (spliceBytes B i (beBytes n v.toNat))) s
  exec_get : ∀ B i s, exec (get B i) s = answerBytes B i n (res (BitVec.ofNat w (beValue (sliceBytes B i n)))) s

theorem fixedWidth_u16 : FixedWidth 2 .putU16 .getU16 .u16 :=
  ⟨rfl, by decide, by decide, fun _ _ _ _ => rfl, fun _ _ _ => rfl⟩

theorem fixedWidth_u24 : FixedWidth 3 .putU24 .getU24 .u24 :=
  ⟨rfl, by decide, by decide, fun _ _ _ _ => rfl, fun _ _ _ => rfl⟩

theorem fixedWidth_u32 : FixedWidth 4 .putU32 .getU32 .u32 :=
  ⟨rfl, by decide, by decide, fun _ _ _ _ => rfl, fun _ _ _ => rfl⟩

theorem fixedWidth_u56 : FixedWidth 7 .putU56 .getU56 .u56 :=
  ⟨rfl, by decide, by decide, fun _ _ _ _ => rfl, fun _ _ _ => rfl⟩

theorem fixedWidth_u64 : FixedWidth 8 .putU64 .getU64 .u64 :=
  ⟨rfl, by decide, by decide, fun _ _ _ _ => rfl, fun _ _ _ => rfl⟩

/-! ### Bytes written and read (40_bit_io.md R121 to R130) -/

theorem writtenAt_spliceBytes {B s : Bytes} {i : Nat} (h : i + s.length ≤ B.length) :
    WrittenAt B (spliceBytes B i s) i s := by
  refine ⟨length_spliceBytes B i s h, fun k _ => ?_⟩
  simp only [at', List.getD_eq_getElem?_getD, getElem?_spliceBytes B i k s h]
  split <;> rfl

theorem sliceBytes_eq_map {B : Bytes} {i n : Nat} (h : i + n ≤ B.length) :
    sliceBytes B i n = (List.range n).map fun k => at' B (i + k) := by
  apply List.ext_getElem
  · simp only [sliceBytes, List.length_take, List.length_drop, List.length_map, List.length_range]
    omega
  · intro k hk hk'
    have hkn : k < n := by simpa using hk'
    have hki : i + k < B.length := by omega
    simp [sliceBytes, at', List.getElem?_eq_getElem hki]

/-- The bytes `f 0` to `f n` joined, most significant first. -/
def joinBytes (f : Nat → Byte) : (n : Nat) → BitVec (8 * (n + 1))
  | 0 => f 0
  | n + 1 => joinBytes f n ++ f (n + 1)

theorem beValue_map_range (f : Nat → Byte) (n : Nat) :
    beValue ((List.range (n + 1)).map f) = (joinBytes f n).toNat := by
  induction n with
  | zero => simp [beValue, joinBytes]
  | succ n ih =>
    rw [List.range_succ, List.map_append, List.map_singleton, beValue_append, ih]
    exact (BitVec.toNat_append ..).symm

section
variable {w n : Nat} {put : Bytes → Nat → BitVec w → Instr} {get : Bytes → Nat → Instr} {res : BitVec w → Result}

theorem FixedWidth.putRule (h : FixedWidth n put get res) {cmd : BitVec 6} {bytes : BitVec w → Bytes}
    (hsel : ∀ B i v sel, Selects cmd sel (put B i v)) (hbytes : ∀ v, beBytes n v.toNat = bytes v) :
    PutRule cmd n put bytes := by
  refine fun B i v => ⟨hsel B i v, fun s => ⟨fun hout => ?_, fun hin => ?_⟩⟩
  · rw [h.exec_put, answerBytes_outside hout]
  · refine ⟨spliceBytes B i (bytes v), writtenAt_spliceBytes ?_, ?_⟩
    · rwa [← hbytes, length_beBytes]
    · rw [h.exec_put, answerBytes_inside hin, hbytes]
      rfl

theorem FixedWidth.getRule (h : FixedWidth (n + 1) put get res) {cmd : BitVec 6} {value : Bytes → Nat → BitVec w}
    (hsel : ∀ B i sel, Selects cmd sel (get B i))
    (hvalue : ∀ B i, (joinBytes (fun k => at' B (i + k)) n).toNat = (value B i).toNat) :
    GetRule cmd (n + 1) get fun B i => res (value B i) := by
  refine fun B i => ⟨hsel B i, fun s => ⟨fun hout => ?_, fun hin => ?_⟩⟩
  · rw [h.exec_get, answerBytes_outside hout]
  · rw [h.exec_get, answerBytes_inside hin, sliceBytes_eq_map hin, beValue_map_range, hvalue, BitVec.ofNat_toNat,
      BitVec.setWidth_eq]
    rfl

theorem FixedWidth.roundTrip (h : FixedWidth n put get res) : FixedRoundTrip n put get res := by
  intro B i v s hin
  have hlen : (beBytes n v.toNat).length = n := length_beBytes n v.toNat
  have hfit : i + (beBytes n v.toNat).length ≤ B.length := by rwa [hlen]
  have hread : beValue (sliceBytes (spliceBytes B i (beBytes n v.toNat)) i n) = v.toNat :=
    beValue_sliceBytes_spliceBytes B i n v.toNat hin (h.width ▸ v.isLt)
  refine ⟨spliceBytes B i (beBytes n v.toNat), ?_, ?_, fun k hk => ?_⟩
  · rw [h.exec_put, answerBytes_inside hin]
    rfl
  · rw [h.exec_get, answerBytes_inside (by rwa [length_spliceBytes B i _ hfit]), hread, BitVec.ofNat_toNat,
      BitVec.setWidth_eq]
    rfl
  · rw [getElem?_spliceBytes B i k _ hfit, if_neg (by omega)]

theorem FixedWidth.isBits (h : FixedWidth n put get res) : FixedIsBits put get res := by
  obtain rfl := h.width
  have hfield (B : Bytes) (i : Nat) (r : Result) (s : State) :
      answerField B (8 * i) (8 * n) r s = answerBytes B i n r s := (answerBytes_eq_answerField h.pos h.le r s).symm
  refine fun B i s => ⟨fun v => ?_, ?_⟩
  · rw [h.exec_put, exec_putBits, hfield]
    by_cases hin : i + n ≤ B.length
    · rw [spliceBytes_beBytes B i n v.toNat hin]
    · rw [answerBytes_outside (Nat.lt_of_not_le hin), answerBytes_outside (Nat.lt_of_not_le hin)]
  · rw [h.exec_get, exec_getBits, hfield]
    by_cases hin : i + n ≤ B.length
    · refine .inl ⟨getField (8 * n) B (8 * i), ?_, ?_⟩
      · rw [answerBytes_inside hin, beValue_sliceBytes B i n hin]
        rfl
      · rw [answerBytes_inside hin, getField, BitVec.toNat_ofNat, Nat.mod_eq_of_lt (getBitsLoop_lt ..)]
        rfl
    · exact .inr ⟨answerBytes_outside (Nat.lt_of_not_le hin) _ _, answerBytes_outside (Nat.lt_of_not_le hin) _ _⟩

end

/-! ### Bit fields (40_bit_io.md R131, R132) -/

/-- The bits of the statements are those of the model (30_encoding.md R94). -/
theorem bit_eq_bitAt (B : Bytes) (p : Nat) : bit B p = bitAt B p := rfl

section
variable {B : Bytes} {o w : Nat} (v : Nat)

theorem bit_putField_inside (h : o + w ≤ 8 * B.length) {j : Nat} (hj : j < w) :
    bit (putField B o w v) (o + j) = v.testBit (w - 1 - j) := by
  rw [bit_eq_bitAt, bitAt_putField B o w v _ h, if_pos (by omega), Nat.add_sub_cancel_left]

theorem bit_putField_outside (h : o + w ≤ 8 * B.length) {p : Nat} (hp : p < o ∨ o + w ≤ p) :
    bit (putField B o w v) p = bit B p := by
  rw [bit_eq_bitAt, bitAt_putField B o w v _ h, if_neg (by omega), bit_eq_bitAt]

end

theorem testBit_getBitsLoop_field (B : Bytes) (o : Nat) {w j : Nat} (hj : j < w) :
    (getBitsLoop B o w).testBit (w - 1 - j) = bit B (o + j) := by
  rw [testBit_getBitsLoop, show w - 1 - (w - 1 - j) = j by omega, decide_eq_true (by omega), Bool.true_and, bit_eq_bitAt]

theorem putBitsValueFits_of_lt {w v : Nat} (hw : w ≤ 64) (hv : v < 2 ^ w) : putBitsValueFits w v = true := by
  simpa [putBitsValueFits, Nat.min_eq_left hw] using hv

/-! ### The obligations -/

/-- Settles O8: each width puts the big-endian bytes of the value into its place. -/
theorem putFixedWidth : Obligations.PutFixedWidth :=
  ⟨fixedWidth_u16.putRule (fun _ _ _ => selects_of_ignoresSel rfl rfl rfl) fun _ => rfl,
    fixedWidth_u24.putRule (fun _ _ _ => selects_of_ignoresSel rfl rfl rfl) fun _ => rfl,
    fixedWidth_u32.putRule (fun _ _ _ => selects_of_ignoresSel rfl rfl rfl) fun _ => rfl,
    fixedWidth_u56.putRule (fun _ _ _ => selects_of_ignoresSel rfl rfl rfl) fun _ => rfl,
    fixedWidth_u64.putRule (fun _ _ _ => selects_of_ignoresSel rfl rfl rfl) fun _ => rfl⟩

/-- Settles O9: the value of the bytes read, most significant first, is that of the bytes joined. -/
theorem getFixedWidth : Obligations.GetFixedWidth :=
  ⟨fixedWidth_u16.getRule (fun _ _ => selects_of_ignoresSel rfl rfl rfl) fun _ _ => rfl,
    fixedWidth_u24.getRule (fun _ _ => selects_of_ignoresSel rfl rfl rfl) fun _ _ => rfl,
    fixedWidth_u32.getRule (fun _ _ => selects_of_ignoresSel rfl rfl rfl) fun _ _ => rfl,
    fixedWidth_u56.getRule (fun _ _ => selects_of_ignoresSel rfl rfl rfl) fun _ _ => rfl,
    fixedWidth_u64.getRule (fun _ _ => selects_of_ignoresSel rfl rfl rfl) fun _ _ => rfl⟩

/-- Settles O10. -/
theorem putBits : Obligations.PutBits := by
  intro B o w v hv
  refine ⟨fun hw => selects_of_ignoresSel rfl rfl (putBitsValueFits_of_lt hw hv), fun s =>
    ⟨fun hw => answerField_badWidth hw _ s, fun h₁ h₆₄ hout => answerField_outside h₁ h₆₄ hout _ s,
      fun h₁ h₆₄ hin => ?_⟩⟩
  exact ⟨putField B o w v, answerField_inside h₁ h₆₄ hin _ s, length_putField B o w v,
    fun _ => bit_putField_inside v hin, fun _ _ => bit_putField_outside v hin⟩

/-- Settles O11. -/
theorem getBits : Obligations.GetBits := by
  refine fun B o w => ⟨selects_of_ignoresSel rfl rfl rfl, fun s =>
    ⟨fun hw => answerField_badWidth hw _ s, fun h₁ h₆₄ hout => answerField_outside h₁ h₆₄ hout _ s,
      fun h₁ h₆₄ hin => ?_⟩⟩
  exact ⟨getBitsLoop B o w, getBitsLoop_lt B o w, fun _ => testBit_getBitsLoop_field B o,
    answerField_inside h₁ h₆₄ hin _ s⟩

/-- Settles O12: what a write leaves at its place is what a read of the place joins. -/
theorem bitIoRoundTrip : Obligations.BitIoRoundTrip := by
  refine ⟨fixedWidth_u16.roundTrip, fixedWidth_u24.roundTrip, fixedWidth_u32.roundTrip, fixedWidth_u56.roundTrip,
    fixedWidth_u64.roundTrip, fun B o w v s h₁ h₆₄ hv hin => ?_⟩
  refine ⟨putField B o w v, answerField_inside h₁ h₆₄ hin _ s, ?_, fun _ => bit_putField_outside v hin⟩
  rw [exec_getBits, answerField_inside h₁ h₆₄ (by rwa [length_putField]), getBitsLoop_putField B o w v hin hv]
  rfl

/-- Settles O13: `n` bytes at an index are `8 * n` bits at a byte boundary. -/
theorem fixedWidthIsBits : Obligations.FixedWidthIsBits :=
  ⟨fixedWidth_u16.isBits, fixedWidth_u24.isBits, fixedWidth_u32.isBits, fixedWidth_u56.isBits, fixedWidth_u64.isBits⟩

end Sys2Proof.Proofs
end

section
/-! SUPPORT. The family of 41_ext_id.md: the composer writes the identifier word of 30_encoding.md R80 with its reserved bits
zero, `SPLIT_ID` reads the fields of that word, and `WIRE_ID` takes two of them from the class's row of the catalogue. -/

namespace Sys2Proof.Proofs

open Sys2Proof.Machine Sys2Proof.Claims

/-! ### The identifier word -/

theorem toNat_append_eq_add {m n : Nat} (a : BitVec m) (b : BitVec n) : (a ++ b).toNat = a.toNat * 2 ^ n + b.toNat := by
  rw [BitVec.toNat_append, ← Nat.shiftLeft_add_eq_or_of_lt b.isLt, Nat.shiftLeft_eq]

/-- The layout of R80 as a number: every field at its weight. -/
theorem toNat_identWord (mt : BitVec 8) (x : IdentFields) :
    (identWord mt x).toNat = x.reserved.toNat * 2 ^ 29 + x.priority.toNat * 2 ^ 26 + mt.toNat * 2 ^ 18 +
      x.nodeType.toNat * 2 ^ 12 + x.nodeId.toNat := by
  simp only [identWord, toNat_append_eq_add]
  omega

/-- The identifiers of 29 bits are the words with the reserved bits zero. -/
theorem toNat_identWord_lt {mt : BitVec 8} {x : IdentFields} :
    (identWord mt x).toNat < 2 ^ 29 ↔ x.reserved = 0 := by
  rw [toNat_identWord, ← BitVec.toNat_inj, show (0 : BitVec 3).toNat = 0 from rfl]
  omega

/-- Masking a field to its width and shifting it to its place is writing it into the identifier word (R140). -/
theorem makeId_eq_identWord (p mt nt ni : BitVec 32) :
    makeId p mt nt ni = identWord (mt.setWidth 8) ⟨0, p.setWidth 3, nt.setWidth 6, ni.setWidth 12⟩ := by
  apply BitVec.eq_of_getLsbD_eq
  intro i hi
  simp only [makeId, identWord, BitVec.getLsbD_or, BitVec.getLsbD_shiftLeft, BitVec.getLsbD_and, BitVec.getLsbD_append]
  interval_cases i <;> simp

/-- Operands in their widths are the fields of the identifier (R143). -/
theorem makeId_of_fields (p : BitVec 3) (mt : BitVec 8) (nt : BitVec 6) (ni : BitVec 12) :
    makeId (p.setWidth 32) (mt.setWidth 32) (nt.setWidth 32) (ni.setWidth 32) = identWord mt ⟨0, p, nt, ni⟩ := by
  simp [makeId_eq_identWord]

/-- An identifier word tells its fields apart (R143). -/
theorem identWord_inj {mt mt' : BitVec 8} {x x' : IdentFields} :
    identWord mt x = identWord mt' x' ↔ mt = mt' ∧ x = x' := by
  refine ⟨fun h => ⟨?_, ?_⟩, fun ⟨hmt, hx⟩ => by rw [hmt, hx]⟩
  · simpa using congrArg identMessageType h
  · simpa using congrArg identFields h

theorem identFields_reserved_of_lt {id : BitVec 32} (h : id.toNat < 2 ^ 29) : (identFields id).reserved = 0 := by
  rwa [← identWord_fields id, toNat_identWord_lt] at h

/-! ### What the three operations answer -/

theorem exec_makeId (p mt nt ni : BitVec 32) (s : State) :
    exec (.makeId p mt nt ni) s = .next { s with result := .u32 (makeId p mt nt ni) } := rfl

/-- `SPLIT_ID` answers the fields of R80, the reserved bits left out (R141). -/
theorem exec_splitId (id : BitVec 32) (s : State) :
    exec (.splitId id) s = .next { s with
      result := .idFields (identFields id).priority (identMessageType id) (identFields id).nodeType
        (identFields id).nodeId } := rfl

theorem exec_wireId (sel : BitVec 8) (nt ni : BitVec 32) (s : State) :
    exec (.wireId sel nt ni) s = execWireId sel nt ni s := rfl

/-! ### The rows of the catalogue (30_encoding.md R91) and the classes -/

/-- The row of R91 that the model's three tables hold for a class. -/
def rowOf (c : MsgClass) : CatalogueRow where
  mt := (messageTypeOf c).toNat
  priority := if c = .preUnixTime then none else some (priorityOf Config.defaults c).toNat
  size := sizeBytes c

theorem rowOf_priorityIn (p : Config.Params) (c : MsgClass) : (rowOf c).priorityIn p = (priorityOf p c).toNat := by
  cases c <;> rfl

/-- Every row of R91 is the row of the class that its message_type selects. -/
theorem classOf_row : ∀ r ∈ catalogue, (classOf (BitVec.ofNat 8 r.mt)).map rowOf = some r := by decide

theorem classOf_of_row {r : CatalogueRow} {sel : BitVec 8} (hr : r ∈ catalogue) (hmt : r.mt = sel.toNat) :
    ∃ c, classOf sel = some c ∧ rowOf c = r := by
  simpa [hmt] using classOf_row r hr

theorem known_iff {sel : BitVec 8} : Known sel ↔ (classOf sel).isSome = true := by
  simp [Known, ← catalogue_any_eq]

theorem classOf_of_not_known {sel : BitVec 8} (h : ¬ Known sel) : classOf sel = none := by
  simpa [known_iff] using h

/-! ### `WIRE_ID` outside the catalogue and inside it -/

theorem exec_wireId_unknown {sel : BitVec 8} (h : ¬ Known sel) (nt ni : BitVec 32) (s : State) :
    exec (.wireId sel nt ni) s = .refused .unknownClass := by
  simp only [exec_wireId, execWireId, classOf_of_not_known h]

/-- `WIRE_ID` is `MAKE_ID` of the row's priority and number (R142). -/
theorem exec_wireId_of_row {r : CatalogueRow} {sel : BitVec 8} (hr : r ∈ catalogue) (hmt : r.mt = sel.toNat)
    (nt ni : BitVec 32) (s : State) :
    exec (.wireId sel nt ni) s =
      exec (.makeId (BitVec.ofNat 32 (r.priorityIn s.params)) (BitVec.ofNat 32 sel.toNat) nt ni) s := by
  obtain ⟨c, hc, rfl⟩ := classOf_of_row hr hmt
  rw [exec_makeId, rowOf_priorityIn, ← hmt]
  simp only [exec_wireId, execWireId, hc, wireId, rowOf, BitVec.ofNat_toNat]
  rfl

/-! ### A command word with its `sel` -/

/-- The bundle that the encoder writes goes with the word that it writes. -/
theorem selects_of_encode {c : BitVec 6} {sel : BitVec 8} {i : Instr} (hword : (encode i).word = .cmd (cmdWord c sel))
    (hi : i.wellFormed = true) : Selects c sel i := by
  refine ⟨(encode i).ops, ?_⟩
  calc decode ⟨.cmd (c ++ sel), (encode i).ops⟩
      = decode (encode i) := by rw [← cmdWord, ← hword]
    _ = .ok i := decode_encode i hi

/-! ### The obligations

Protected, so that inside this namespace the short names stay those of the model's functions. -/

/-- Settles O14: the number of the identifier word, each field reduced to its width. -/
protected theorem makeId : Obligations.MakeId := by
  refine fun p mt nt ni => ⟨selects_of_ignoresSel rfl rfl rfl, fun s => ⟨_, exec_makeId p mt nt ni s, ?_⟩⟩
  simp [makeId_eq_identWord, toNat_identWord, BitVec.toNat_setWidth]

/-- Settles O15: a field is the number shifted to the field's place, reduced to its width. -/
protected theorem splitId : Obligations.SplitId := by
  refine fun id => ⟨selects_of_ignoresSel rfl rfl rfl, fun s => ⟨_, _, _, _, exec_splitId id s, ?_⟩⟩
  simp [identFields, identMessageType, BitVec.extractLsb'_toNat, Nat.shiftRight_eq_div_pow]

/-- Settles O16: writing the identifier word and reading its fields are inverse. -/
theorem identifierLaws : Obligations.IdentifierLaws := by
  simp only [Obligations.IdentifierLaws, exec_makeId, makeId_of_fields]
  refine ⟨fun p mt nt ni s => ⟨_, rfl, toNat_identWord_lt.mpr rfl, ?_⟩, fun id s hid => ⟨_, _, _, _, exec_splitId id s, ?_⟩,
    fun p p' mt mt' nt nt' ni ni' s h => ?_⟩
  · simp [exec_splitId]
  · rw [← identFields_reserved_of_lt hid, identWord_fields]
  · simpa [identWord_inj, and_left_comm] using h

/-- Settles O17. -/
protected theorem wireId : Obligations.WireId := by
  refine fun sel nt ni => ⟨selects_of_encode rfl rfl, fun s => ⟨fun hsel => exec_wireId_unknown hsel nt ni s,
    fun r hr hmt => ⟨_, exec_makeId _ _ nt ni s, ?_⟩⟩⟩
  rw [exec_wireId_of_row hr hmt, exec_makeId]

end Sys2Proof.Proofs
end

section
/-! SUPPORT. The layouts of 42_message_codecs.md: fields side by side from bit 0, then zeros (R151). A body is compared
with its layout as a list of bits (`bitsOf`): `bitsOf_packBody` says what `PACK` builds, `holds_iff_bitsOf` what
`UNPACK` reads. -/

namespace Sys2Proof.Proofs

open Sys2Proof.Machine Sys2Proof.Claims

/-! ### The bits of a word, most significant first -/

/-- The low `w` bits of a number, most significant first. -/
def natBits (w v : Nat) : List Bool := (List.range w).map fun j => v.testBit (w - 1 - j)

/-- The bits of a word, most significant first. -/
def wordBits {w : Nat} (x : BitVec w) : List Bool := natBits w x.toNat

@[simp] theorem length_natBits (w v : Nat) : (natBits w v).length = w := by simp [natBits]

@[simp] theorem getElem_natBits {w v j : Nat} (h : j < (natBits w v).length) :
    (natBits w v)[j] = v.testBit (w - 1 - j) := by simp [natBits]

theorem natBits_inj {w a b : Nat} (ha : a < 2 ^ w) (hb : b < 2 ^ w) : natBits w a = natBits w b ↔ a = b := by
  refine ⟨fun h => ?_, fun h => by rw [h]⟩
  rw [← Nat.mod_eq_of_lt ha, ← Nat.mod_eq_of_lt hb]
  apply Nat.eq_of_testBit_eq
  intro j
  by_cases hj : j < w
  · have hbit := congrArg (·[w - 1 - j]?) h
    have hpos : w - 1 - j < w := by omega
    simpa [natBits, hpos, show w - 1 - (w - 1 - j) = j by omega, hj] using hbit
  · simp [hj]

theorem natBits_flag (b : Bool) : natBits 1 b.toNat = [b] := by cases b <;> rfl

theorem wordBits_append {m n : Nat} (x : BitVec m) (y : BitVec n) :
    wordBits (x ++ y) = wordBits x ++ wordBits y := by
  apply List.ext_getElem (by simp [wordBits])
  intro j hj _
  simp only [wordBits, length_natBits] at hj
  simp only [wordBits, getElem_natBits, List.getElem_append, length_natBits, BitVec.testBit_toNat,
    BitVec.getLsbD_append]
  by_cases hjm : j < m
  · rw [if_neg (by omega), dif_pos hjm]
    congr 1; omega
  · rw [if_pos (by omega), dif_neg hjm]
    congr 1; omega

@[simp] theorem wordBits_zero (n : Nat) : wordBits 0#n = List.replicate n false := by simp [wordBits, natBits]

@[simp] theorem wordBits_one (b : Bool) : wordBits (one b) = [b] := by cases b <;> rfl

/-- Neighbouring parts of a word make up one part of it. -/
@[simp] theorem wordBits_extractLsb_append {w hi mid lo : Nat} (x : BitVec w) (hlo : lo ≤ mid) (hhi : mid < hi) :
    wordBits (x.extractLsb hi (mid + 1)) ++ wordBits (x.extractLsb mid lo) = wordBits (x.extractLsb hi lo) := by
  rw [← wordBits_append]
  apply List.ext_getElem (by simp [wordBits]; omega)
  intro j hj _
  simp only [wordBits, length_natBits] at hj
  simp only [wordBits, getElem_natBits, BitVec.testBit_toNat, BitVec.getLsbD_append, BitVec.getLsbD_extractLsb]
  split
  · rw [decide_eq_true (by omega), decide_eq_true (by omega)]
    congr 2; omega
  · rw [decide_eq_true (by omega), decide_eq_true (by omega)]
    congr 2; omega

@[simp] theorem wordBits_extractLsb_append_assoc {w hi mid lo : Nat} (x : BitVec w) (hlo : lo ≤ mid) (hhi : mid < hi)
    (l : List Bool) : wordBits (x.extractLsb hi (mid + 1)) ++ (wordBits (x.extractLsb mid lo) ++ l) =
      wordBits (x.extractLsb hi lo) ++ l := by
  rw [← List.append_assoc, wordBits_extractLsb_append x hlo hhi]

@[simp] theorem wordBits_extractLsb_all {hi : Nat} (x : BitVec (hi + 1)) :
    wordBits (x.extractLsb hi 0) = wordBits x := by
  simp [wordBits]

/-! ### The bits of a body (30_encoding.md R94) -/

@[simp] theorem length_bitsOf (B : Bytes) : (bitsOf B).length = 8 * B.length := by
  simp [bitsOf, List.length_flatMap]; omega

@[simp] theorem bitsOf_nil : bitsOf [] = [] := rfl

@[simp] theorem bitsOf_cons (b : Byte) (B : Bytes) : bitsOf (b :: B) = wordBits b ++ bitsOf B := rfl

@[simp] theorem bitsOf_append (A B : Bytes) : bitsOf (A ++ B) = bitsOf A ++ bitsOf B := List.flatMap_append

@[simp] theorem bitsOf_be16 (v : BitVec 16) : bitsOf (be16 v) = wordBits v := by simp [be16]

@[simp] theorem bitsOf_be32 (v : BitVec 32) : bitsOf (be32 v) = wordBits v := by simp [be32]

@[simp] theorem bitsOf_be56 (v : BitVec 56) : bitsOf (be56 v) = wordBits v := by simp [be56]

theorem bitsOf_eq_map (B : Bytes) : bitsOf B = (List.range (8 * B.length)).map (bitAt B) := by
  induction B with
  | nil => rfl
  | cons b B ih =>
    have hlen : 8 * (b :: B).length = 8 + 8 * B.length := by simp; omega
    rw [bitsOf_cons, ih, hlen, List.range_add, List.map_append, List.map_map]
    congr 1
    apply List.map_congr_left
    intro p _
    simpa using bitAt_drop (b :: B) 1 p

@[simp] theorem getElem_bitsOf {B : Bytes} {p : Nat} (h : p < (bitsOf B).length) : (bitsOf B)[p] = bitAt B p := by
  simp [bitsOf_eq_map]

theorem bitsOf_inj {A B : Bytes} : bitsOf A = bitsOf B ↔ A = B := by
  refine ⟨fun h => ?_, fun h => by rw [h]⟩
  have hlen : A.length = B.length := by simpa using congrArg List.length h
  refine bytes_ext hlen fun p hp => ?_
  rw [← getElem_bitsOf (by simpa using hp), ← getElem_bitsOf (by simpa [← hlen] using hp)]
  simp only [h]

/-- The bits of the field that `GET_BITS` reads (40_bit_io.md R132). -/
theorem natBits_getBitsLoop {B : Bytes} {o w : Nat} (h : o + w ≤ 8 * B.length) :
    natBits w (getBitsLoop B o w) = ((bitsOf B).drop o).take w := by
  apply List.ext_getElem (by simp; omega)
  intro j hj _
  rw [length_natBits] at hj
  simp only [getElem_natBits, List.getElem_take, List.getElem_drop, getElem_bitsOf, testBit_getBitsLoop_field B o hj]
  rfl

/-- The bits that `PUT_BITS` leaves (40_bit_io.md R131). -/
theorem bitsOf_putField {B : Bytes} {o w : Nat} (v : Nat) (h : o + w ≤ 8 * B.length) :
    bitsOf (putField B o w v) = (bitsOf B).take o ++ natBits w v ++ (bitsOf B).drop (o + w) := by
  apply List.ext_getElem (by simp; omega)
  intro p hp _
  rw [getElem_bitsOf, bitAt_putField B o w v p h]
  simp only [List.getElem_append, getElem_natBits, List.getElem_take, List.getElem_drop, getElem_bitsOf,
    List.length_append, List.length_take, length_bitsOf, length_natBits]
  by_cases h1 : p < o
  · rw [if_neg (by omega), dif_pos (by omega), dif_pos (by omega)]
  by_cases h2 : p < o + w
  · rw [if_pos (by omega), dif_pos (by omega), dif_neg (by omega)]
    congr 1; omega
  · rw [if_neg (by omega), dif_neg (by omega)]
    congr 1; omega

/-! ### Fields read as bytes and parts of bytes (42_message_codecs.md R152) -/

theorem getField_append (m n : Nat) (B : Bytes) (o : Nat) :
    getField (m + n) B o = getField m B o ++ getField n B (o + m) := by
  apply BitVec.eq_of_getLsbD_eq
  intro j hj
  simp only [BitVec.getLsbD_append, getLsbD_getField, decide_eq_true hj, Bool.true_and]
  split
  · rw [decide_eq_true ‹_›, Bool.true_and]
    congr 1; omega
  · rw [decide_eq_true (by omega), Bool.true_and]
    congr 1; omega

/-- The field on byte `k`. -/
theorem getField_byte (B : Bytes) (k : Nat) : getField 8 B (8 * k) = at' B k := by
  apply BitVec.eq_of_getLsbD_eq
  intro j hj
  rw [getLsbD_getField, decide_eq_true hj, Bool.true_and, at', getLsbD_byte B k j hj]

/-- The field on bits `hi` to `lo` of byte `k`. -/
theorem getField_inByte (B : Bytes) (k hi lo : Nat) (h : lo ≤ hi ∧ hi < 8 := by decide) :
    getField (hi - lo + 1) B (8 * k + (7 - hi)) = (at' B k).extractLsb hi lo := by
  apply BitVec.eq_of_getLsbD_eq
  intro j hj
  rw [getLsbD_getField, decide_eq_true hj, Bool.true_and, BitVec.getLsbD_extractLsb, decide_eq_true (by omega),
    Bool.true_and, at', getLsbD_byte B k _ (by omega)]
  congr 1; omega

theorem getFlag_inByte (B : Bytes) (k j : Nat) (hj : j < 8 := by decide) :
    getFlag B (8 * k + (7 - j)) = (at' B k).getLsbD j := (getLsbD_byte B k j hj).symm

/-- A field that two fields make up, the more significant bits first. -/
theorem getField_join {m n o : Nat} {B : Bytes} {x : BitVec m} {y : BitVec n} (hx : getField m B o = x)
    (hy : getField n B (o + m) = y) : getField (m + n) B o = x ++ y := by rw [getField_append, hx, hy]

theorem getField_u16 (B : Bytes) (k : Nat) : getField 16 B (8 * k) = u16At B k :=
  getField_join (getField_byte B k) (getField_byte B (k + 1))

theorem getField_u24 (B : Bytes) (k : Nat) : getField 24 B (8 * k) = at' B k ++ at' B (k + 1) ++ at' B (k + 2) :=
  getField_join (getField_u16 B k) (getField_byte B (k + 2))

theorem getField_u32 (B : Bytes) (k : Nat) : getField 32 B (8 * k) = u32At B k :=
  getField_join (getField_u24 B k) (getField_byte B (k + 3))

theorem getField_u56 (B : Bytes) (k : Nat) : getField 56 B (8 * k) = u56At B k :=
  getField_join (getField_join (getField_join (getField_u32 B k) (getField_byte B (k + 4))) (getField_byte B (k + 5)))
    (getField_byte B (k + 6))

/-! ### Layouts (42_message_codecs.md R151): fields side by side, then padding -/

/-- The fields stand side by side from bit `o` up to bit `e`, each with a value of its width. -/
def SideBySide : Nat → List FieldValue → Nat → Prop
  | o, [], e => o = e
  | o, f :: fs, e => f.offset = o ∧ f.value < 2 ^ f.width ∧ SideBySide (o + f.width) fs e

/-- The bits of fields one after another. -/
def fieldBits (fs : List FieldValue) : List Bool := fs.flatMap fun f => natBits f.width f.value

/-- A body has the value of each field at the field's place. -/
def Holds (B : Bytes) (fs : List FieldValue) : Prop := ∀ f ∈ fs, getBitsLoop B f.offset f.width = f.value

/-! #### Field by field -/

theorem getBitsLoop_eq_toNat_iff {B : Bytes} {o w : Nat} {x : BitVec w} :
    getBitsLoop B o w = x.toNat ↔ getField w B o = x := by
  rw [← BitVec.toNat_inj, getField, BitVec.toNat_ofNat, Nat.mod_eq_of_lt (getBitsLoop_lt ..)]

theorem flag_toNat_inj : ∀ {x y : Bool}, x.toNat = y.toNat ↔ x = y := by decide

theorem getBitsLoop_eq_flag_iff {B : Bytes} {o : Nat} {x : Bool} : getBitsLoop B o 1 = x.toNat ↔ getFlag B o = x := by
  have hbit : getBitsLoop B o 1 = (getFlag B o).toNat := by simp [getBitsLoop, getFlag]
  rw [hbit, flag_toNat_inj]

section
variable {o e w : Nat} {fs gs : List FieldValue}

@[simp] theorem sideBySide_nil : SideBySide o [] e ↔ o = e := Iff.rfl

@[simp] theorem sideBySide_word (x : BitVec w) :
    SideBySide o (⟨o, w, x.toNat⟩ :: fs) e ↔ SideBySide (o + w) fs e := by simp [SideBySide, x.isLt]

@[simp] theorem sideBySide_flag (x : Bool) :
    SideBySide o (⟨o, 1, x.toNat⟩ :: fs) e ↔ SideBySide (o + 1) fs e := by simp [SideBySide, x.toNat_le]

theorem sideBySide_append {m : Nat} (hfs : SideBySide o fs m) (hgs : SideBySide m gs e) :
    SideBySide o (fs ++ gs) e := by
  induction fs generalizing o with
  | nil =>
    cases hfs
    exact hgs
  | cons f fs ih =>
    obtain ⟨hoffset, hvalue, hrest⟩ := hfs
    exact ⟨hoffset, hvalue, ih hrest⟩

@[simp] theorem fieldBits_nil : fieldBits [] = [] := rfl

@[simp] theorem fieldBits_word (x : BitVec w) :
    fieldBits (⟨o, w, x.toNat⟩ :: fs) = wordBits x ++ fieldBits fs := rfl

@[simp] theorem fieldBits_flag (x : Bool) : fieldBits (⟨o, 1, x.toNat⟩ :: fs) = x :: fieldBits fs :=
  congrArg (· ++ fieldBits fs) (natBits_flag x)

theorem fieldBits_append : fieldBits (fs ++ gs) = fieldBits fs ++ fieldBits gs := List.flatMap_append

variable {B : Bytes}

@[simp] theorem holds_nil : Holds B [] := nofun

@[simp] theorem holds_word (x : BitVec w) : Holds B (⟨o, w, x.toNat⟩ :: fs) ↔ getField w B o = x ∧ Holds B fs := by
  rw [← getBitsLoop_eq_toNat_iff]
  exact List.forall_mem_cons

@[simp] theorem holds_flag (x : Bool) : Holds B (⟨o, 1, x.toNat⟩ :: fs) ↔ getFlag B o = x ∧ Holds B fs := by
  rw [← getBitsLoop_eq_flag_iff]
  exact List.forall_mem_cons

theorem holds_append : Holds B (fs ++ gs) ↔ Holds B fs ∧ Holds B gs := List.forall_mem_append

end

/-! #### What `PACK` builds, and what `UNPACK` reads -/

theorem fieldBits_cons (f : FieldValue) (fs : List FieldValue) :
    fieldBits (f :: fs) = natBits f.width f.value ++ fieldBits fs := rfl

theorem length_fieldBits {o e : Nat} {fs : List FieldValue} (h : SideBySide o fs e) :
    o + (fieldBits fs).length = e := by
  induction fs generalizing o with
  | nil => exact h
  | cons f fs ih =>
    obtain ⟨-, -, hrest⟩ := h
    simpa [fieldBits_cons, Nat.add_assoc] using ih hrest

/-- What the fields from bit `o` on leave of a body that is zero from there on. -/
theorem bitsOf_putFields {o e : Nat} {fs : List FieldValue} (h : SideBySide o fs e) {B : Bytes}
    (hfits : e ≤ 8 * B.length) {done : List Bool} (hlen : done.length = o)
    (hB : bitsOf B = done ++ List.replicate (8 * B.length - o) false) :
    bitsOf (fs.foldl (fun B f => putField B f.offset f.width f.value) B) =
      done ++ fieldBits fs ++ List.replicate (8 * B.length - e) false := by
  induction fs generalizing o B done with
  | nil =>
    cases h
    simpa [fieldBits] using hB
  | cons f fs ih =>
    have hend := length_fieldBits h
    obtain ⟨rfl, -, hrest⟩ := h
    rw [fieldBits_cons, List.length_append, length_natBits] at hend
    have hput : bitsOf (putField B f.offset f.width f.value) =
        (done ++ natBits f.width f.value) ++ List.replicate (8 * B.length - (f.offset + f.width)) false := by
      rw [bitsOf_putField f.value (by omega), hB, ← hlen, List.take_left, List.drop_append, List.drop_replicate]
      simp [Nat.sub_sub]
    have hdone : (done ++ natBits f.width f.value).length = f.offset + f.width := by simp [hlen]
    rw [List.foldl_cons, ih hrest (by rwa [length_putField]) hdone (by rwa [length_putField]), length_putField,
      fieldBits_cons, List.append_assoc done]

/-- `PACK` writes the fields one after another, and zeros from there on (R151). -/
theorem bitsOf_packBody {size e : Nat} {fs : List FieldValue} (h : SideBySide 0 fs e) (hfits : e ≤ 8 * size) :
    bitsOf (packBody size fs) = fieldBits fs ++ List.replicate (8 * size - e) false := by
  have hzero : bitsOf (List.replicate size 0) = List.replicate (8 * size) false := by
    simpa [bitsOf_eq_map, List.eq_replicate_iff] using fun p _ => bitAt_replicate_zero size p
  simpa [packBody] using bitsOf_putFields h (B := List.replicate size 0) (by simpa using hfits) (done := [])
    rfl (by simpa using hzero)

theorem holds_iff_bitsOf_from {o e : Nat} {fs : List FieldValue} (h : SideBySide o fs e) {B : Bytes}
    (hfits : e ≤ 8 * B.length) : Holds B fs ↔ fieldBits fs = ((bitsOf B).drop o).take (e - o) := by
  induction fs generalizing o with
  | nil =>
    cases h
    simp [Holds, fieldBits]
  | cons f fs ih =>
    have hend := length_fieldBits h
    obtain ⟨rfl, hvalue, hrest⟩ := h
    rw [fieldBits_cons, List.length_append, length_natBits] at hend
    have hcut : ((bitsOf B).drop f.offset).take (e - f.offset) = natBits f.width (getBitsLoop B f.offset f.width) ++
        ((bitsOf B).drop (f.offset + f.width)).take (e - (f.offset + f.width)) := by
      rw [natBits_getBitsLoop (by omega), ← List.drop_drop, ← List.take_add]
      congr 1; omega
    have happend (a b : List Bool) (ha : a.length = f.width) :
        natBits f.width f.value ++ fieldBits fs = a ++ b ↔ natBits f.width f.value = a ∧ fieldBits fs = b :=
      ⟨fun h => List.append_inj h (by simp [ha]), fun ⟨h, h'⟩ => by rw [h, h']⟩
    rw [fieldBits_cons, hcut, happend _ _ (length_natBits ..), ← ih hrest, natBits_inj hvalue (getBitsLoop_lt ..),
      eq_comm]
    exact List.forall_mem_cons

/-- A body has the fields' values exactly when it begins with their bits (R152). -/
theorem holds_iff_bitsOf {e : Nat} {fs : List FieldValue} (h : SideBySide 0 fs e) {B : Bytes}
    (hfits : e ≤ 8 * B.length) : Holds B fs ↔ (bitsOf B).take e = fieldBits fs := by
  simpa [eq_comm] using holds_iff_bitsOf_from h hfits

/-- Reading what was packed (42_message_codecs.md R206). -/
theorem holds_packBody {size e : Nat} {fs : List FieldValue} (h : SideBySide 0 fs e) (hfits : e ≤ 8 * size) :
    Holds (packBody size fs) fs := by
  have hlen : (fieldBits fs).length = e := by simpa using length_fieldBits h
  rw [holds_iff_bitsOf h (by simpa using hfits), bitsOf_packBody h hfits, ← hlen, List.take_left]

/-- Packing what was read (R206): the same body where nothing but zeros follows the fields, up to the size. -/
theorem packBody_eq_iff_of_holds {size e : Nat} {fs : List FieldValue} (h : SideBySide 0 fs e) (hfits : e ≤ 8 * size)
    {B : Bytes} (hB : e ≤ 8 * B.length) (hholds : Holds B fs) :
    packBody size fs = B ↔ (bitsOf B).drop e = List.replicate (8 * size - e) false := by
  conv_lhs => rw [← bitsOf_inj, bitsOf_packBody h hfits, ← (holds_iff_bitsOf h hB).mp hholds]
  conv_lhs => rhs; rw [← List.take_append_drop e (bitsOf B)]
  rw [List.append_cancel_left_eq, eq_comm]

/-! ### The 32 data bytes of `DATA_TRANSFER` (R166) -/

theorem sideBySide_bytes (l : Bytes) (k : Nat) :
    SideBySide (8 * k) ((l.zipIdx k).map fun x => ⟨8 * x.2, 8, x.1.toNat⟩) (8 * (k + l.length)) := by
  induction l generalizing k with
  | nil => rfl
  | cons b l ih =>
    have hrest := ih (k + 1)
    simpa [Nat.mul_add, Nat.add_assoc, Nat.add_comm 8] using hrest

theorem sideBySide_dataFields (data : Vector Byte 32) : SideBySide 0 (dataFields data) 256 := by
  simpa [dataFields] using sideBySide_bytes data.toList 0

theorem fieldBits_dataFields (data : Vector Byte 32) : fieldBits (dataFields data) = bitsOf data.toList := by
  have hbytes (l : Bytes) (k : Nat) :
      fieldBits ((l.zipIdx k).map fun x => ⟨8 * x.2, 8, x.1.toNat⟩) = bitsOf l := by
    induction l generalizing k with
    | nil => rfl
    | cons b l ih => simpa using ih (k + 1)
  exact hbytes data.toList 0

theorem holds_dataFields {B : Bytes} {data : Vector Byte 32} :
    Holds B (dataFields data) ↔ (Vector.ofFn fun j : Fin 32 => getField 8 B (8 * j)) = data := by
  simp only [Holds, dataFields, List.forall_mem_map, Prod.forall, List.mem_zipIdx_iff_getElem?,
    getBitsLoop_eq_toNat_iff, Vector.ext_iff, Vector.getElem?_toList, Vector.getElem_ofFn]
  refine ⟨fun h j hj => h _ j (Vector.getElem?_eq_getElem hj), fun h b j hj => ?_⟩
  obtain ⟨hlt, rfl⟩ := Vector.getElem?_eq_some_iff.mp hj
  exact h j hlt

/-! ### Padding -/

/-- The masks cover exactly the bits from `e` on of a body of `size` bytes. -/
abbrev MasksFrom (e size : Nat) (padding : Nat → Byte) : Prop :=
  ∀ k < size, ∀ j < 8, (padding k).getLsbD (7 - j) = decide (e ≤ 8 * k + j)

/-- Only zeros from bit `e` on, up to the end of a body of `size` bytes: the length and the bits of it. -/
theorem drop_bitsOf_eq_zeros_iff {e size : Nat} {B : Bytes} (hfits : e ≤ 8 * size) (hB : size ≤ B.length) :
    (bitsOf B).drop e = List.replicate (8 * size - e) false ↔
      B.length = size ∧ ∀ p < 8 * size, e ≤ p → bitAt B p = false := by
  simp only [bitsOf_eq_map, ← List.map_drop, List.eq_replicate_iff, List.length_map, List.length_drop,
    List.length_range, List.forall_mem_map, List.mem_drop_iff_getElem, List.getElem_range]
  refine ⟨fun ⟨hlen, hbits⟩ => ?_, fun ⟨hlen, hbits⟩ => ?_⟩
  · have hlen : B.length = size := by omega
    exact ⟨hlen, fun p hp hep => hbits p ⟨p - e, by omega, by omega⟩⟩
  · subst hlen
    refine ⟨rfl, ?_⟩
    rintro p ⟨j, hj, rfl⟩
    exact hbits _ (by omega) (by omega)

theorem masked_eq_zero_iff {e size k : Nat} {padding : Nat → Byte} (hmask : MasksFrom e size padding) (hk : k < size)
    (B : Bytes) : at' B k &&& padding k = 0 ↔ ∀ j < 8, e ≤ 8 * k + j → bitAt B (8 * k + j) = false := by
  have hbit (j : Nat) (hj : j < 8) : (at' B k &&& padding k).getLsbD (7 - j) =
      (bitAt B (8 * k + j) && decide (e ≤ 8 * k + j)) := by
    rw [BitVec.getLsbD_and, hmask k hk j hj, at', getLsbD_byte B k _ (by omega), show 7 - (7 - j) = j by omega]
  refine ⟨fun h j hj hej => ?_, fun h => BitVec.eq_of_getLsbD_eq fun i hi => ?_⟩
  · simpa [h, hej] using (hbit j hj).symm
  · rw [show i = 7 - (7 - i) by omega, hbit _ (by omega)]
    by_cases hei : e ≤ 8 * k + (7 - i)
    · simp [h (7 - i) (by omega) hei]
    · simp [hei]

theorem drop_bitsOf_eq_zeros_iff_masks {e size : Nat} {padding : Nat → Byte} (hmask : MasksFrom e size padding)
    (hfits : e ≤ 8 * size) {B : Bytes} (hB : size ≤ B.length) :
    (bitsOf B).drop e = List.replicate (8 * size - e) false ↔
      B.length = size ∧ ∀ k < size, at' B k &&& padding k = 0 := by
  rw [drop_bitsOf_eq_zeros_iff hfits hB]
  refine and_congr_right fun _ => ⟨fun h k hk => ?_, fun h p hp hep => ?_⟩
  · exact (masked_eq_zero_iff hmask hk B).mpr fun j hj => h _ (by omega)
  · have hbyte := (masked_eq_zero_iff hmask (k := p / 8) (by omega) B).mp (h _ (by omega)) (p % 8) (by omega)
    rw [Nat.div_add_mod] at hbyte
    exact hbyte hep

end Sys2Proof.Proofs
end

section
/-! SUPPORT. The family of 42_message_codecs.md: each class is a layout (`FieldCodec`) or opaque bytes (`OpaqueCodec`),
and the laws of `PACK` and `UNPACK` follow from that alone. -/

namespace Sys2Proof.Proofs

open Sys2Proof.Machine Sys2Proof.Claims

/-! ### `SIZE_OF` and `DECODE` (R154 to R156) -/

theorem exec_sizeOf (sel : BitVec 8) (s : State) :
    exec (.sizeOf sel) s = .next { s with result := .size ((classOf sel).map sizeBytes) } := rfl

theorem exec_decode (sel : BitVec 8) (B : Bytes) (s : State) :
    exec (.decode sel B) s = .next { s with result := .decoded (decodeMessage s.params sel B) } := rfl

theorem decodeMessage_of_class (p : Config.Params) {sel : BitVec 8} {c : MsgClass} (hc : classOf sel = some c)
    (B : Bytes) :
    decodeMessage p sel B = if acceptLen p sel B.length then some ⟨sel, B⟩ else none := by
  simp [decodeMessage, hc]

/-- The default of `P_ACCEPT_LEN` (00_scope.md R7). -/
theorem acceptLen_default {p : Config.Params} (hp : p.acceptLenDepartures = []) {sel : BitVec 8} {c : MsgClass}
    (hc : classOf sel = some c) (n : Nat) : acceptLen p sel n = decide (sizeBytes c ≤ n) := by
  simp only [acceptLen, hc, hp]
  split
  next heq => simp [heq]
  next => rfl

/-! ### The rules of one class (R151, R152) -/

/-- A `PACK` rule: the bytes of the rule have the bits of the layout. -/
theorem packs_of_bits {cmd : BitVec 6} {sel : BitVec 8} {i : Instr} {size e : Nat} {fs : List FieldValue}
    {body : Bytes} (hsel : Selects cmd sel i) (hexec : ∀ s, exec i s = s.deliver (.bytes (packBody size fs)))
    (hside : SideBySide 0 fs e) (hbits : bitsOf body = fieldBits fs ++ List.replicate (8 * size - e) false)
    (hfits : e ≤ 8 * size := by decide) : Packs cmd sel i body := by
  refine ⟨hsel, fun s => ?_⟩
  rw [hexec, bitsOf_inj.mp ((bitsOf_packBody hside hfits).trans hbits.symm)]
  rfl

/-- An `UNPACK` rule: the rule reads the fields that the model reads. -/
theorem unpacks_of_view {cmd : BitVec 6} {sel : BitVec 8} {size : Nat} {mk : Bytes → Instr}
    {read view : Bytes → Result} (hsel : ∀ B, Selects cmd sel (mk B))
    (hexec : ∀ B s, exec (mk B) s = unpackWith size B read s) (hview : ∀ B, read B = view B) :
    Unpacks cmd sel size mk view := by
  refine fun B => ⟨hsel B, fun s => ⟨fun hshort => ?_, fun hlong => ?_⟩⟩
  · rw [hexec]
    exact if_pos hshort
  · rw [hexec, unpackWith_next, hview]
    exact ⟨hlong, rfl⟩

/-! ### The classes with a given layout -/

/-- `PACK` and `UNPACK` of a class whose layout the spec gives: `e` bits of fields in a body of `size` bytes,
which `read` finds where the layout puts them. -/
inductive FieldCodec {α : Type} (size e : Nat) (pack : α → Instr) (unpack : Bytes → Instr) (view : α → Result) : Prop
  | intro (fields : α → List FieldValue) (read : Bytes → α)
      (exec_pack : ∀ v s, exec (pack v) s = s.deliver (.bytes (packBody size (fields v))))
      (exec_unpack : ∀ B s, exec (unpack B) s = unpackWith size B (fun b => view (read b)) s)
      (sideBySide : ∀ v, SideBySide 0 (fields v) e)
      (holds_iff : ∀ B v, Holds B (fields v) ↔ read B = v)
      (fits : e ≤ 8 * size := by decide)
      (view_inj : ∀ v v', view v = view v' → v = v' := by intro _ _ h; injection h)

/-- R206, with the padding where the masks are. -/
theorem FieldCodec.roundTrips {α : Type} {size e : Nat} {pack : α → Instr} {unpack : Bytes → Instr}
    {view : α → Result} (h : FieldCodec size e pack unpack view) {padding : Nat → Byte}
    (hmask : MasksFrom e size padding) : RoundTrips pack unpack view size padding := by
  obtain ⟨fields, read, hpack, hunpack, hside, hholds, hfits, hview⟩ := h
  refine fun s => ⟨fun v => ⟨packBody size (fields v), hpack v s, ?_⟩, fun B v hB => ?_⟩
  · rw [hunpack, unpackWith_next]
    have hread : read (packBody size (fields v)) = v := (hholds _ v).mp (holds_packBody (hside v) hfits)
    exact ⟨(length_packBody ..).ge, by rw [hread]; rfl⟩
  · rw [hunpack, unpackWith_next] at hB
    obtain ⟨hlen, heq⟩ := hB
    obtain rfl := hview v (read B) (congrArg State.result heq)
    have hbody : Holds B (fields (read B)) := (hholds B _).mpr rfl
    have hnext (b : Bytes) : s.deliver (.bytes b) = .next { s with result := .bytes B } ↔ b = B := by
      rw [deliver_next]
      exact ⟨fun h => by injection congrArg State.result h with h; exact h.symm, fun h => by rw [h]; rfl⟩
    rw [hpack, hnext, packBody_eq_iff_of_holds (hside _) hfits (by omega) hbody,
      drop_bitsOf_eq_zeros_iff_masks hmask hfits hlen]

theorem fieldCodec_reset : FieldCodec 2 14 .packReset .unpackReset .reset :=
  .intro _ unpackResetBody (fun _ _ => rfl) (fun _ _ => rfl) (fun _ => by simp)
    fun _ v => by cases v; simp [unpackResetBody]

theorem fieldCodec_dataTransfer : FieldCodec 36 288 .packDataTransfer .unpackDataTransfer .dataTransfer :=
  .intro _ unpackDataTransferBody (fun _ _ => rfl) (fun _ _ => rfl)
    (fun v => sideBySide_append (sideBySide_dataFields v.data) (by simp))
    fun _ v => by cases v; simp [unpackDataTransferBody, holds_append, holds_dataFields]

theorem fieldCodec_nodeStatus : FieldCodec 5 39 .packNodeStatus .unpackNodeStatus .nodeStatus :=
  .intro _ unpackNodeStatusBody (fun _ _ => rfl) (fun _ _ => rfl) (fun _ => by simp)
    fun _ v => by cases v; simp [unpackNodeStatusBody]

theorem fieldCodec_vlStatus : FieldCodec 5 24 .packVlStatus .unpackVlStatus .vlStatus :=
  .intro _ unpackVlStatusBody (fun _ _ => rfl) (fun _ _ => rfl) (fun _ => by simp)
    fun _ v => by cases v; simp [unpackVlStatusBody]

theorem fieldCodec_preUnixTime :
    FieldCodec 0 0 (fun _ : Unit => .packPreUnixTime) .unpackPreUnixTime fun _ => .preUnixTime :=
  .intro (fun _ => []) (fun _ => ()) (fun _ _ => rfl) (fun _ _ => rfl) (fun _ => rfl) (fun _ _ => by simp)
    (view_inj := fun _ _ _ => rfl)

theorem fieldCodec_ampControl : FieldCodec 1 4 .packAmpControl .unpackAmpControl .ampControl :=
  .intro _ unpackAmpControlBody (fun _ _ => rfl) (fun _ _ => rfl) (fun _ => by simp)
    fun _ v => by cases v; simp [unpackAmpControlBody]

theorem fieldCodec_payloadEpsOutputOverwrite :
    FieldCodec 3 18 .packPayloadEpsOutputOverwrite .unpackPayloadEpsOutputOverwrite .payloadEpsOutputOverwrite :=
  .intro _ unpackPayloadEpsOutputOverwriteBody (fun _ _ => rfl) (fun _ _ => rfl) (fun _ => by simp)
    fun _ v => by cases v; simp [unpackPayloadEpsOutputOverwriteBody]

theorem fieldCodec_ack : FieldCodec 4 28 .packAck .unpackAck .ack :=
  .intro _ unpackAckBody (fun _ _ => rfl) (fun _ _ => rfl) (fun _ => by simp)
    fun _ v => by cases v; simp [unpackAckBody]

theorem fieldCodec_ampOverwrite : FieldCodec 1 8 .packAmpOverwrite .unpackAmpOverwrite .ampOverwrite :=
  .intro _ unpackAmpOverwriteBody (fun _ _ => rfl) (fun _ _ => rfl) (fun _ => by simp)
    fun _ v => by cases v; simp [unpackAmpOverwriteBody]

theorem fieldCodec_airBrakesControl : FieldCodec 6 16 .packAirBrakesControl .unpackAirBrakesControl .airBrakesControl :=
  .intro _ unpackAirBrakesControlBody (fun _ _ => rfl) (fun _ _ => rfl) (fun _ => by simp)
    fun _ v => by cases v; simp [unpackAirBrakesControlBody]

theorem fieldCodec_rocketState : FieldCodec 20 153 .packRocketState .unpackRocketState .rocketState :=
  .intro _ unpackRocketStateBody (fun _ _ => rfl) (fun _ _ => rfl) (fun _ => by simp)
    fun _ v => by cases v; simp [unpackRocketStateBody]

theorem fieldCodec_ampOutStatus : FieldCodec 1 3 .packAmpOutStatus .unpackAmpOutStatus .ampOutStatus :=
  .intro _ unpackAmpOutStatusBody (fun _ _ => rfl) (fun _ _ => rfl) (fun _ => by simp)
    fun _ v => by cases v; simp [unpackAmpOutStatusBody]

theorem fieldCodec_epsOutStatus : FieldCodec 2 16 .packEpsOutStatus .unpackEpsOutStatus .epsOutStatus :=
  .intro _ unpackEpsOutStatusBody (fun _ _ => rfl) (fun _ _ => rfl) (fun _ => by simp)
    fun _ v => by cases v; simp [unpackEpsOutStatusBody]

/-! ### The classes carried as opaque bytes -/

/-- `PACK` and `UNPACK` of a class carried as opaque bytes (R150). -/
structure OpaqueCodec (c : MsgClass) (pack unpack : Bytes → Instr) : Prop where
  exec_pack : ∀ body s, exec (pack body) s = packOpaque c body s
  exec_unpack : ∀ B s, exec (unpack B) s = unpackOpaque c B s

section
variable {c : MsgClass} {pack unpack : Bytes → Instr}

theorem OpaqueCodec.rules (h : OpaqueCodec c pack unpack) {sel : BitVec 8}
    (hpack : ∀ body, Selects 0x30 sel (pack body)) (hunpack : ∀ B, Selects 0x31 sel (unpack B)) :
    Opaque sel (sizeBytes c) pack unpack := by
  refine ⟨fun body => ⟨hpack body, fun s => ⟨fun hlen => ?_, fun hlen => ?_⟩⟩,
    unpacks_of_view hunpack h.exec_unpack fun _ => rfl⟩
  · rw [h.exec_pack]
    exact if_pos hlen
  · rw [h.exec_pack, packOpaque_next]
    exact ⟨hlen, rfl⟩

theorem OpaqueCodec.roundTrips (h : OpaqueCodec c pack unpack) : OpaqueRoundTrips pack unpack (sizeBytes c) := by
  refine fun s => ⟨fun body hlen => ⟨?_, ?_⟩, fun B b hB => ?_⟩
  · rw [h.exec_pack, packOpaque_next]
    exact ⟨hlen, rfl⟩
  · rw [h.exec_unpack, unpackOpaque_next, ← hlen, List.take_length]
    exact ⟨le_rfl, rfl⟩
  · rw [h.exec_unpack, unpackOpaque_next] at hB
    obtain ⟨hlen, heq⟩ := hB
    obtain rfl : b = B.take (sizeBytes c) := by injection congrArg State.result heq
    rw [h.exec_pack, packOpaque_next]
    refine ⟨fun ⟨_, hbody⟩ => ?_, fun hexact => ?_⟩
    · have htake : B = B.take (sizeBytes c) := by injection congrArg State.result hbody
      rw [htake, List.length_take_of_le hlen]
    · rw [← hexact, List.take_length]
      exact ⟨rfl, rfl⟩

end

theorem opaqueCodec_unixTime : OpaqueCodec .unixTime .packUnixTime .unpackUnixTime :=
  ⟨fun _ _ => rfl, fun _ _ => rfl⟩

theorem opaqueCodec_ampStatus : OpaqueCodec .ampStatus .packAmpStatus .unpackAmpStatus :=
  ⟨fun _ _ => rfl, fun _ _ => rfl⟩

theorem opaqueCodec_payloadEpsStatus : OpaqueCodec .payloadEpsStatus .packPayloadEpsStatus .unpackPayloadEpsStatus :=
  ⟨fun _ _ => rfl, fun _ _ => rfl⟩

theorem opaqueCodec_ampResetOutput : OpaqueCodec .ampResetOutput .packAmpResetOutput .unpackAmpResetOutput :=
  ⟨fun _ _ => rfl, fun _ _ => rfl⟩

theorem opaqueCodec_icarusStatus : OpaqueCodec .icarusStatus .packIcarusStatus .unpackIcarusStatus :=
  ⟨fun _ _ => rfl, fun _ _ => rfl⟩

theorem opaqueCodec_baroMeasurement : OpaqueCodec .baroMeasurement .packBaroMeasurement .unpackBaroMeasurement :=
  ⟨fun _ _ => rfl, fun _ _ => rfl⟩

theorem opaqueCodec_imuMeasurement : OpaqueCodec .imuMeasurement .packImuMeasurement .unpackImuMeasurement :=
  ⟨fun _ _ => rfl, fun _ _ => rfl⟩

theorem opaqueCodec_brightnessMeasurement :
    OpaqueCodec .brightnessMeasurement .packBrightnessMeasurement .unpackBrightnessMeasurement :=
  ⟨fun _ _ => rfl, fun _ _ => rfl⟩

theorem opaqueCodec_magMeasurement : OpaqueCodec .magMeasurement .packMagMeasurement .unpackMagMeasurement :=
  ⟨fun _ _ => rfl, fun _ _ => rfl⟩

theorem opaqueCodec_ozysMeasurement : OpaqueCodec .ozysMeasurement .packOzysMeasurement .unpackOzysMeasurement :=
  ⟨fun _ _ => rfl, fun _ _ => rfl⟩

/-! ### The length of what a `PACK` gives (R207) -/

/-- Where the operation completes, its result is a body of the size of the class (R207). -/
def GivesBody (c : MsgClass) (i : Instr) : Prop :=
  ∀ s t, exec i s = .next t → ∃ b : Bytes, t = { s with result := .bytes b } ∧ b.length = sizeBytes c

theorem givesBody_of_fields {c : MsgClass} {i : Instr} {fs : List FieldValue}
    (h : ∀ s, exec i s = s.deliver (.bytes (packBody (sizeBytes c) fs))) : GivesBody c i := by
  intro s t ht
  rw [h, deliver_next] at ht
  exact ⟨_, ht, length_packBody ..⟩

theorem givesBody_of_opaque {c : MsgClass} {i : Instr} {body : Bytes} (h : ∀ s, exec i s = packOpaque c body s) :
    GivesBody c i := by
  intro s t ht
  rw [h, packOpaque_next] at ht
  exact ⟨body, ht.2, ht.1⟩

/-- An answer of the decoder that is an error or a `PACK` of the class that `sel` selects. -/
def PacksClass (sel : BitVec 8) (a : Except DecodeError Instr) : Prop :=
  ∀ i, a = .ok i → ∃ c, classOf sel = some c ∧ GivesBody c i

theorem packsClass_accept {sel : BitVec 8} {c : MsgClass} {b : Bundle} {most : Option Nat} {ports : List (Option Nat)}
    {i : Instr} (hi : GivesBody c i) (hsel : sel.toNat = (messageTypeOf c).toNat) :
    PacksClass sel (accept b most ports i) := by
  intro j hj
  obtain ⟨-, -, rfl⟩ := accept_eq_ok.mp hj
  exact ⟨c, by rw [BitVec.eq_of_toNat_eq hsel, classOf_messageTypeOf], hi⟩

theorem packsClass_acceptDataTransfer {sel : BitVec 8} (b : Bundle) (hsel : sel.toNat = 16) :
    PacksClass sel (acceptDataTransfer b) := by
  unfold acceptDataTransfer
  split
  · exact packsClass_accept (c := .dataTransfer) (givesBody_of_fields fun _ => rfl) hsel
  · exact nofun

theorem packsClass_decodePack (sel : BitVec 8) (b : Bundle) : PacksClass sel (decodePack sel b) := by
  unfold decodePack
  split
  case h_4 hsel => exact packsClass_acceptDataTransfer b hsel
  case h_22 => exact nofun
  case h_2 hsel | h_6 hsel | h_7 hsel | h_13 hsel | h_15 hsel | h_16 hsel | h_17 hsel | h_19 hsel
      | h_20 hsel | h_21 hsel =>
    exact packsClass_accept (givesBody_of_opaque fun _ => rfl) hsel
  all_goals
    next hsel => exact packsClass_accept (givesBody_of_fields fun _ => rfl) hsel

theorem row_of_classOf {sel : BitVec 8} {c : MsgClass} (h : classOf sel = some c) :
    rowOf c ∈ catalogue ∧ (rowOf c).mt = sel.toNat := by
  have hmem (c : MsgClass) : rowOf c ∈ catalogue := by cases c <;> decide
  exact ⟨hmem c, congrArg BitVec.toNat (messageTypeOf_of_classOf h)⟩

theorem decodePack_of_packedClass {r : Request} {sel : BitVec 8} (h : packedClass r = some sel) :
    decode r = decodePack sel r.ops := by
  obtain ⟨word, ops⟩ := r
  cases word with
  | cmd w =>
    simp only [packedClass, Option.ite_none_right_eq_some, Option.some.injEq] at h
    obtain ⟨hcmd, rfl⟩ := h
    rw [← decode_packRequest, cmdRequest, ← hcmd, ← cmdOf, ← selOf, cmdWord_fields]
  | tail t => cases h
  | ident id => cases h

/-! ### The obligations

Two are protected, so that inside this namespace the short names stay those of the model's functions. -/

/-- Settles O20: `SIZE_BYTES` of the class whose row it is. -/
protected theorem sizeOf : Obligations.SizeOf := by
  refine fun sel => ⟨selects_of_encode rfl rfl, fun s => ⟨fun hsel => ?_, fun r hr hmt => ?_⟩⟩
  · rw [exec_sizeOf, classOf_of_not_known hsel]
    rfl
  · obtain ⟨c, hc, rfl⟩ := classOf_of_row hr hmt
    rw [exec_sizeOf, hc]
    rfl

/-- Settles O21, by the class that the type selects and the answer of `P_ACCEPT_LEN`. -/
protected theorem decode : Obligations.Decode := by
  refine fun sel B hB => ⟨selects_of_encode rfl (decide_eq_true hB), fun s => ⟨fun hsel => ?_, fun r hr hmt => ?_⟩⟩
  · rw [exec_decode, decodeMessage_unknown _ (classOf_of_not_known hsel)]
  · obtain ⟨c, hc, rfl⟩ := classOf_of_row hr hmt
    refine ⟨fun hlen => ?_, fun hp hshort => ?_, fun hp hlong => ?_, ?_⟩
    · rw [exec_decode, decodeMessage_exact _ hc hlen]
    · rw [exec_decode, decodeMessage_of_class _ hc, acceptLen_default hp hc, if_neg (by simpa [rowOf] using hshort)]
    · rw [exec_decode, decodeMessage_of_class _ hc, acceptLen_default hp hc, if_pos (by simpa [rowOf] using hlong)]
    · cases haccept : acceptLen s.params sel B.length with
      | true =>
        left
        intro s' B' hp hlen
        rw [exec_decode, decodeMessage_of_class _ hc, hp, hlen, if_pos haccept]
      | false =>
        right
        intro s' B' hp hlen
        rw [exec_decode, decodeMessage_of_class _ hc, hp, hlen, if_neg (by simp [haccept])]

/-- Settles O22: the bits of each body are those of its layout, and each field is made up of parts of bytes. (A byte
is taken apart before `simp` evaluates the sum of widths that `wordBits_append` matches.) -/
theorem codecsWithNodeId : Obligations.CodecsWithNodeId := by
  refine ⟨
    fun v => packs_of_bits (size := 2) (e := 14) (selects_of_encode rfl rfl) (fun _ => rfl) (by simp) ?_,
    unpacks_of_view (fun _ => selects_of_encode rfl rfl) (fun _ _ => rfl) fun B => ?_,
    fun v => packs_of_bits (size := 3) (e := 18) (selects_of_encode rfl rfl) (fun _ => rfl) (by simp) ?_,
    unpacks_of_view (fun _ => selects_of_encode rfl rfl) (fun _ _ => rfl) fun B => ?_,
    fun v => packs_of_bits (size := 4) (e := 28) (selects_of_encode rfl rfl) (fun _ => rfl) (by simp) ?_,
    unpacks_of_view (fun _ => selects_of_encode rfl rfl) (fun _ _ => rfl) fun B => ?_⟩
  · simp only [bitsOf_cons, wordBits_append]
    simp
  · simp only [unpackResetBody, Result.reset.injEq, ResetFields.mk.injEq]
    exact ⟨getField_join (getField_byte B 0) (getField_inByte B 1 7 4), getFlag_inByte B 1 3, getFlag_inByte B 1 2⟩
  · simp only [bitsOf_cons, wordBits_append]
    simp
  · simp only [unpackPayloadEpsOutputOverwriteBody, Result.payloadEpsOutputOverwrite.injEq,
      PayloadEpsOutputOverwriteFields.mk.injEq]
    exact ⟨getField_inByte B 0 7 6, getField_inByte B 0 5 4, getField_inByte B 0 3 2,
      getField_join (getField_join (getField_inByte B 0 1 0) (getField_byte B 1)) (getField_inByte B 2 7 6)⟩
  · rw [bitsOf_append, bitsOf_cons, bitsOf_cons, wordBits_append]
    simp
  · simp only [unpackAckBody, Result.ack.injEq, AckFields.mk.injEq]
    exact ⟨getField_u16 B 0, getField_join (getField_byte B 2) (getField_inByte B 3 7 4)⟩

/-- Settles O23, as O22; the padding of `VL_STATUS` is two bytes. -/
theorem codecsOfStatus : Obligations.CodecsOfStatus := by
  refine ⟨
    fun v => packs_of_bits (size := 5) (e := 39) (selects_of_encode rfl rfl) (fun _ => rfl) (by simp) ?_,
    unpacks_of_view (fun _ => selects_of_encode rfl rfl) (fun _ _ => rfl) fun B => ?_,
    fun v => packs_of_bits (size := 5) (e := 24) (selects_of_encode rfl rfl) (fun _ => rfl) (by simp) ?_,
    unpacks_of_view (fun _ => selects_of_encode rfl rfl) (fun _ _ => rfl) fun B => ?_⟩
  · simp only [bitsOf_cons, wordBits_append]
    simp
  · simp only [unpackNodeStatusBody, Result.nodeStatus.injEq, NodeStatusFields.mk.injEq]
    exact ⟨getField_u24 B 0, getField_inByte B 3 7 6, getField_inByte B 3 5 4,
      getField_join (getField_inByte B 3 3 0) (getField_inByte B 4 7 1)⟩
  · simp
  · simp only [unpackVlStatusBody, Result.vlStatus.injEq, VlStatusFields.mk.injEq]
    exact ⟨getField_byte B 0, getField_u16 B 1⟩

/-- Settles O24, as O22; a flag is a field of one bit. -/
theorem codecsOfAmp : Obligations.CodecsOfAmp := by
  refine ⟨
    fun v => packs_of_bits (size := 1) (e := 4) (selects_of_encode rfl rfl) (fun _ => rfl) (by simp) ?_,
    unpacks_of_view (fun _ => selects_of_encode rfl rfl) (fun _ _ => rfl) fun B => ?_,
    fun v => packs_of_bits (size := 1) (e := 3) (selects_of_encode rfl rfl) (fun _ => rfl) (by simp) ?_,
    unpacks_of_view (fun _ => selects_of_encode rfl rfl) (fun _ _ => rfl) fun B => ?_⟩
  · simp only [bitsOf_cons, wordBits_append]
    simp
  · simp only [unpackAmpControlBody, Result.ampControl.injEq, AmpControlFields.mk.injEq]
    exact ⟨getFlag_inByte B 0 7, getFlag_inByte B 0 6, getFlag_inByte B 0 5, getFlag_inByte B 0 4⟩
  · simp only [bitsOf_cons, wordBits_append]
    simp
  · simp only [unpackAmpOutStatusBody, Result.ampOutStatus.injEq, AmpOutStatusFields.mk.injEq]
    exact ⟨getFlag_inByte B 0 7, getField_inByte B 0 6 5⟩

/-- Settles O25, as O22; the values of 32 and 56 bits are four and seven bytes. -/
theorem codecsOfRocket : Obligations.CodecsOfRocket := by
  refine ⟨
    fun v => packs_of_bits (size := 2) (e := 16) (selects_of_encode rfl rfl) (fun _ => rfl) (by simp) ?_,
    unpacks_of_view (fun _ => selects_of_encode rfl rfl) (fun _ _ => rfl) fun B => ?_,
    fun v => packs_of_bits (size := 6) (e := 16) (selects_of_encode rfl rfl) (fun _ => rfl) (by simp) ?_,
    unpacks_of_view (fun _ => selects_of_encode rfl rfl) (fun _ _ => rfl) fun B => ?_,
    fun v => packs_of_bits (size := 20) (e := 153) (selects_of_encode rfl rfl) (fun _ => rfl) (by simp) ?_,
    unpacks_of_view (fun _ => selects_of_encode rfl rfl) (fun _ _ => rfl) fun B => ?_⟩
  · simp only [bitsOf_cons, wordBits_append]
    simp
  · simp only [unpackEpsOutStatusBody, Result.epsOutStatus.injEq, EpsOutStatusFields.mk.injEq]
    exact ⟨getField_join (getField_byte B 0) (getField_inByte B 1 7 3), getFlag_inByte B 1 2, getField_inByte B 1 1 0⟩
  · simp
  · simp only [unpackAirBrakesControlBody, Result.airBrakesControl.injEq, AirBrakesControlFields.mk.injEq]
    exact getField_u16 B 0
  · rw [bitsOf_append, bitsOf_cons, wordBits_append]
    simp
  · simp only [unpackRocketStateBody, Result.rocketState.injEq, RocketStateFields.mk.injEq]
    exact ⟨getField_u32 B 0, getField_u32 B 4, getField_u32 B 8, getField_u56 B 12, getFlag_inByte B 19 7⟩

/-- Settles O26, as O22; the 32 data bytes of `DATA_TRANSFER` are 32 fields of a byte. -/
theorem codecsPartlyInferred : Obligations.CodecsPartlyInferred := by
  refine ⟨
    fun v => packs_of_bits (size := 1) (e := 8) (selects_of_encode rfl rfl) (fun _ => rfl) (by simp) ?_,
    unpacks_of_view (fun _ => selects_of_encode rfl rfl) (fun _ _ => rfl) fun B => ?_,
    fun v => packs_of_bits (size := 36) (e := 288) (selects_of_encode rfl rfl) (fun _ => rfl)
      (sideBySide_append (sideBySide_dataFields v.data) (by simp)) ?_,
    unpacks_of_view (fun _ => selects_of_encode rfl rfl) (fun _ _ => rfl) fun B => ?_,
    ⟨selects_of_encode rfl rfl, fun _ => rfl⟩,
    unpacks_of_view (fun _ => selects_of_encode rfl rfl) (fun _ _ => rfl) fun _ => rfl⟩
  · simp only [bitsOf_cons, wordBits_append]
    simp
  · simp only [unpackAmpOverwriteBody, Result.ampOverwrite.injEq, AmpOverwriteFields.mk.injEq]
    exact ⟨getField_inByte B 0 7 6, getField_inByte B 0 5 4, getField_inByte B 0 3 2, getField_inByte B 0 1 0⟩
  · rw [bitsOf_append, bitsOf_cons, bitsOf_cons, bitsOf_cons, wordBits_append, wordBits_append,
      wordBits_append, fieldBits_append, fieldBits_dataFields]
    simp
  · simp only [unpackDataTransferBody, Result.dataTransfer.injEq, DataTransferFields.mk.injEq, getField_byte, true_and]
    exact ⟨getField_byte B 32, getField_byte B 33, getFlag_inByte B 34 7, getFlag_inByte B 34 6,
      getField_inByte B 34 5 4, getField_join (getField_inByte B 34 3 0) (getField_byte B 35)⟩

/-- Settles O27: each class is one of opaque bytes. -/
theorem opaqueStatusCodecs : Obligations.OpaqueStatusCodecs :=
  ⟨opaqueCodec_unixTime.rules (fun _ => selects_of_encode rfl rfl) fun _ => selects_of_encode rfl rfl,
    opaqueCodec_ampStatus.rules (fun _ => selects_of_encode rfl rfl) fun _ => selects_of_encode rfl rfl,
    opaqueCodec_payloadEpsStatus.rules (fun _ => selects_of_encode rfl rfl) fun _ => selects_of_encode rfl rfl,
    opaqueCodec_ampResetOutput.rules (fun _ => selects_of_encode rfl rfl) fun _ => selects_of_encode rfl rfl,
    opaqueCodec_icarusStatus.rules (fun _ => selects_of_encode rfl rfl) fun _ => selects_of_encode rfl rfl⟩

/-- Settles O28: each class is one of opaque bytes. -/
theorem opaqueMeasurementCodecs : Obligations.OpaqueMeasurementCodecs :=
  ⟨opaqueCodec_baroMeasurement.rules (fun _ => selects_of_encode rfl rfl) fun _ => selects_of_encode rfl rfl,
    opaqueCodec_imuMeasurement.rules (fun _ => selects_of_encode rfl rfl) fun _ => selects_of_encode rfl rfl,
    opaqueCodec_brightnessMeasurement.rules (fun _ => selects_of_encode rfl rfl) fun _ => selects_of_encode rfl rfl,
    opaqueCodec_magMeasurement.rules (fun _ => selects_of_encode rfl rfl) fun _ => selects_of_encode rfl rfl,
    opaqueCodec_ozysMeasurement.rules (fun _ => selects_of_encode rfl rfl) fun _ => selects_of_encode rfl rfl⟩

/-- Settles O29: a layout is read where it was written, and its masks cover what follows it. -/
theorem codecRoundTrip : Obligations.CodecRoundTrip :=
  ⟨fieldCodec_reset.roundTrips (by decide), fieldCodec_dataTransfer.roundTrips (by decide),
    fieldCodec_nodeStatus.roundTrips (by decide), fieldCodec_vlStatus.roundTrips (by decide),
    fieldCodec_ampControl.roundTrips (by decide), fieldCodec_payloadEpsOutputOverwrite.roundTrips (by decide),
    fieldCodec_ack.roundTrips (by decide), fieldCodec_ampOverwrite.roundTrips (by decide),
    fieldCodec_airBrakesControl.roundTrips (by decide), fieldCodec_rocketState.roundTrips (by decide),
    fieldCodec_ampOutStatus.roundTrips (by decide), fieldCodec_epsOutStatus.roundTrips (by decide),
    fieldCodec_preUnixTime.roundTrips (by decide),
    opaqueCodec_unixTime.roundTrips, opaqueCodec_ampStatus.roundTrips, opaqueCodec_payloadEpsStatus.roundTrips,
    opaqueCodec_ampResetOutput.roundTrips, opaqueCodec_baroMeasurement.roundTrips,
    opaqueCodec_imuMeasurement.roundTrips, opaqueCodec_brightnessMeasurement.roundTrips,
    opaqueCodec_magMeasurement.roundTrips, opaqueCodec_ozysMeasurement.roundTrips, opaqueCodec_icarusStatus.roundTrips⟩

/-- Settles O30: each row of the decoder gives a `PACK` of the class that `sel` selects. -/
theorem packedLength : Obligations.PackedLength := by
  intro r i sel s t hr hclass ht
  rw [decodePack_of_packedClass hclass] at hr
  obtain ⟨c, hc, hbody⟩ := packsClass_decodePack sel r.ops i hr
  obtain ⟨b, heq, hlen⟩ := hbody s t ht
  obtain ⟨hmem, hmt⟩ := row_of_classOf hc
  exact ⟨b, heq, rowOf c, hmem, hmt, hlen⟩

end Sys2Proof.Proofs
end

section
/-! SUPPORT. The family of 43_crc16.md: the unit's register takes the bits of a byte sequence one at a time, most
significant first (`crc16_eq_crcSerial`). One step tells two registers apart and two bits apart, so a single bit that
differs shows in the CRC (`crc16_ne_of_one_bit`). -/

namespace Sys2Proof.Proofs

open Sys2Proof.Machine Sys2Proof.Claims

/-! ### The unit is bit-serial -/

/-- One byte is the bits of R231 in turn. -/
theorem crcByte_eq_foldl (c : BitVec 16) (b : Byte) : crcByte c b = (wordBits b).foldl crcBit c := by
  rw [crcByte_eq, wordBits, natBits, List.foldl_map]
  rfl

theorem crc16_eq_crcSerial (B : Bytes) : crc16 B = crcSerial B := by
  have hbyte : crcByte = fun c b => (wordBits b).foldl crcBit c := funext₂ crcByte_eq_foldl
  rw [crc16, crcSerial, hbyte]
  exact List.foldl_flatMap.symm

theorem exec_crc16 (B : Bytes) (s : State) : exec (.crc16 B) s = .next { s with result := .u16 (crc16 B) } := rfl

/-! ### What one bit leaves in the register -/

/-- The polynomial is added if the bit pushed out at the top is not the bit taken in (R231). -/
theorem crcBit_eq (r : BitVec 16) (b : Bool) :
    crcBit r b = r <<< 1 ^^^ (if (r[15] != b) = true then 0x1021#16 else 0#16) := by
  rw [crcBit, BitVec.getLsbD_eq_getElem (by decide)]
  split
  · rfl
  · rw [BitVec.xor_zero]

/-- The bottom bit of the polynomial tells whether it was added. -/
theorem getElem_zero_crcBit (r : BitVec 16) (b : Bool) : (crcBit r b)[0] = (r[15] != b) := by
  rw [crcBit_eq]
  cases r[15] != b <;> simp

theorem shiftLeft_one_inj {r r' : BitVec 16} (htop : r[15] = r'[15]) (h : r <<< 1 = r' <<< 1) : r = r' := by
  apply BitVec.eq_of_getElem_eq
  intro i hi
  by_cases hi15 : i = 15
  · subst hi15
    exact htop
  · simpa [show i + 1 < 16 by omega, BitVec.getLsbD_eq_getElem hi] using congrArg (·.getLsbD (i + 1)) h

/-- A bit can be taken out of the register again. -/
theorem crcBit_left_inj {r r' : BitVec 16} {b : Bool} (h : crcBit r b = crcBit r' b) : r = r' := by
  have htop : r[15] = r'[15] := by simpa [getElem_zero_crcBit] using congrArg (·[0]) h
  refine shiftLeft_one_inj htop ?_
  rw [crcBit_eq, crcBit_eq, htop] at h
  exact (BitVec.xor_left_inj _).mp h

/-- Two bits leave one register with two values. -/
theorem crcBit_right_inj {r : BitVec 16} {b b' : Bool} (h : crcBit r b = crcBit r b') : b = b' := by
  simpa [getElem_zero_crcBit] using congrArg (·[0]) h

/-- What follows does not bring two registers together. -/
theorem foldl_crcBit_inj {r r' : BitVec 16} (bits : List Bool) (h : bits.foldl crcBit r = bits.foldl crcBit r') :
    r = r' := by
  induction bits generalizing r r' with
  | nil => exact h
  | cons b bits ih => exact crcBit_left_inj (ih h)

/-- Another bit in one place, another CRC. -/
theorem foldl_crcBit_set_ne {bits : List Bool} {p : Nat} {b : Bool} (hp : p < bits.length) (hb : b ≠ bits[p])
    (r : BitVec 16) : (bits.set p b).foldl crcBit r ≠ bits.foldl crcBit r := by
  induction bits generalizing p r with
  | nil => exact absurd hp (Nat.not_lt_zero p)
  | cons a bits ih =>
    cases p with
    | zero => exact fun h => hb (crcBit_right_inj (foldl_crcBit_inj bits h))
    | succ p => exact ih (Nat.lt_of_succ_lt_succ hp) hb (crcBit r a)

/-! ### Sequences that differ in one bit -/

section
variable {A B : Bytes} {p : Nat}

theorem bitsOf_eq_set (hlen : A.length = B.length) (hothers : ∀ q, q ≠ p → bit A q = bit B q) :
    bitsOf B = (bitsOf A).set p (bit B p) := by
  refine List.ext_getElem (by simp [hlen]) fun q _ _ => ?_
  rw [List.getElem_set]
  split
  next hq => rw [hq, getElem_bitsOf, bit_eq_bitAt]
  next hq =>
    rw [getElem_bitsOf, getElem_bitsOf, ← bit_eq_bitAt, ← bit_eq_bitAt]
    exact (hothers q (Ne.symm hq)).symm

theorem crc16_ne_of_one_bit (hlen : A.length = B.length) (hp : p < 8 * A.length) (hne : bit A p ≠ bit B p)
    (hothers : ∀ q, q ≠ p → bit A q = bit B q) : crc16 A ≠ crc16 B := by
  rw [crc16_eq_crcSerial, crc16_eq_crcSerial, crcSerial, crcSerial, bitsOf_eq_set hlen hothers]
  refine (foldl_crcBit_set_ne (by simpa using hp) ?_ _).symm
  rw [getElem_bitsOf, ← bit_eq_bitAt]
  exact hne.symm

end

/-! ### The obligations -/

/-- Settles O18. -/
theorem crc16IsBitSerial : Obligations.Crc16IsBitSerial := fun B hB =>
  ⟨selects_of_ignoresSel rfl rfl (decide_eq_true hB), fun s => by rw [exec_crc16, crc16_eq_crcSerial]⟩

/-- Settles O19. -/
theorem crcTellsOneBit : Obligations.CrcTellsOneBit := fun A B _ s hlen hp hne hothers =>
  ⟨crc16 A, crc16 B, exec_crc16 A s, exec_crc16 B s, crc16_ne_of_one_bit hlen hp hne hothers⟩

end Sys2Proof.Proofs
end

section
/-! SUPPORT. The family of 43_crc16.md, a flipped bit in a multi-frame transfer (R235). The frames with the bit flipped are
those of a transfer whose CRC bytes and body do not agree (`exists_transfer_of_flip`), and a decoder drops such a
transfer (`feed_transfer_lost`). -/

namespace Sys2Proof.Proofs

open Sys2Proof.Machine Sys2Proof.Claims

/-! ### A flipped bit in a byte sequence -/

/-- The sequence with bit `y` of byte `x` flipped. -/
def flipBit (B : Bytes) (x y : Nat) : Bytes := B.set x (at' B x ^^^ (1#8 <<< y))

@[simp] theorem length_flipBit (B : Bytes) (x y : Nat) : (flipBit B x y).length = B.length := List.length_set

theorem getElem?_flipBit (B : Bytes) (x y k : Nat) :
    (flipBit B x y)[k]? = B[k]?.map fun b => if k = x then b ^^^ (1#8 <<< y) else b := by
  rw [flipBit, List.getElem?_set]
  by_cases hk : x = k
  · subst hk
    by_cases hx : x < B.length <;> simp [hx, at']
  · simp [hk, Ne.symm hk]

section
variable {A B : Bytes} {x y : Nat}

theorem flipBit_append_left (h : x < A.length) : flipBit (A ++ B) x y = flipBit A x y ++ B := by
  rw [flipBit, List.set_append_left _ _ h, at', List.getD_append _ _ _ _ h]
  rfl

theorem flipBit_append_right (h : A.length ≤ x) : flipBit (A ++ B) x y = A ++ flipBit B (x - A.length) y := by
  rw [flipBit, List.set_append_right _ _ h, at', List.getD_append_right _ _ _ _ h]
  rfl

/-- A part of the sequence has the flipped bit if it reaches over its byte. -/
theorem take_drop_flipBit (B : Bytes) (p m x y : Nat) :
    ((flipBit B x y).drop p).take m =
      if p ≤ x ∧ x < p + m then flipBit ((B.drop p).take m) (x - p) y else (B.drop p).take m := by
  apply List.ext_getElem?
  intro k
  split
  next hin =>
    simp only [getElem?_flipBit, List.getElem?_take, List.getElem?_drop, show (p + k = x) ↔ (k = x - p) by omega]
    split <;> rfl
  next hout =>
    simp only [getElem?_flipBit, List.getElem?_take, List.getElem?_drop]
    by_cases hk : k < m
    · simp [hk, show p + k ≠ x by omega]
    · simp [hk]

theorem bit_flipBit (hx : x < B.length) (hy : y < 8) (q : Nat) :
    bit (flipBit B x y) q = (bit B q != decide (q = 8 * x + (7 - y))) := by
  have hmask (k : Nat) (hk : k < 8) : (1#8 <<< y).getLsbD k = decide (k = y) := by
    interval_cases k <;> interval_cases y <;> rfl
  simp only [bit, at', List.getD_eq_getElem?_getD, getElem?_flipBit]
  by_cases hq : q / 8 = x
  · subst hq
    simp only [hx, List.getElem?_eq_getElem, Option.map_some, Option.getD_some, if_true, BitVec.getLsbD_xor]
    rw [hmask _ (by omega), decide_eq_decide.mpr (show 7 - q % 8 = y ↔ q = 8 * (q / 8) + (7 - y) by omega)]
  · simp [hq, show q ≠ 8 * x + (7 - y) by omega]

theorem crc16_flipBit_ne (hx : x < B.length) (hy : y < 8) : crc16 (flipBit B x y) ≠ crc16 B := by
  refine crc16_ne_of_one_bit (p := 8 * x + (7 - y)) (length_flipBit B x y) ?_ ?_ fun q hq => ?_
  · rw [length_flipBit]
    omega
  · simp [bit_flipBit hx hy]
  · simp [bit_flipBit hx hy, hq]

end

/-- A flipped bit in the two CRC bytes is one in the CRC (20_memory.md R57). -/
theorem flipBit_crcPrefix (crc : BitVec 16) {x y : Nat} (hx : x < 2) (hy : y < 8) :
    ∃ crc', crc' ≠ crc ∧ flipBit (crcPrefix crc) x y = crcPrefix crc' := by
  refine ⟨crc ^^^ (1#16 <<< (8 * x + y)), fun h => ?_, ?_⟩
  · have hbit : (1#16 <<< (8 * x + y)) = 0#16 := by simpa using h
    interval_cases x <;> interval_cases y <;> simp at hbit
  · simp only [crcPrefix, BitVec.ushiftRight_xor_distrib, BitVec.setWidth_xor]
    interval_cases x <;> interval_cases y <;> simp [flipBit, at']

/-! ### A flipped bit in a transfer -/

/-- The data bytes of frame `j` of a transfer. -/
def transferData (crc : BitVec 16) (body : Bytes) (j : Nat) : Bytes :=
  leadOf crc body.length j ++ partOf body j ++ [tailOf body.length j]

theorem transferFrame_eq (id : BitVec 29) (crc : BitVec 16) (body : Bytes) (j : Nat) :
    transferFrame id crc body j = ⟨id, transferData crc body j⟩ := rfl

theorem place_le_length (L j : Nat) : place L j ≤ L := by
  by_cases hj : j < frameCount L
  · exact (place_lt_length hj).le
  · rw [place, if_neg hj]

theorem length_partOf (body : Bytes) (j : Nat) :
    (partOf body j).length = place body.length (j + 1) - place body.length j := by
  have := place_le_length body.length (j + 1)
  simp only [partOf, List.length_take, List.length_drop]
  omega

/-- Frames of different numbers hold different bytes of the body. -/
theorem place_succ_le_place {L i j : Nat} (hij : i < j) (hj : j < frameCount L) : place L (i + 1) ≤ place L j := by
  rw [place_of_lt hj, place_of_lt (by omega)]
  omega

section
variable {crc : BitVec 16} {body : Bytes} {i j x y : Nat}

/-- A flipped bit in the body is one in the frame that holds its byte, and in no other. -/
theorem partOf_flipBit (hi : i < frameCount body.length) (hj : j < frameCount body.length)
    (hx : x < (partOf body j).length) :
    partOf (flipBit body (place body.length j + x) y) i = if i = j then flipBit (partOf body j) x y else partOf body i := by
  rw [length_partOf] at hx
  rw [partOf, length_flipBit, take_drop_flipBit]
  obtain hlt | rfl | hgt := Nat.lt_trichotomy i j
  · have := place_succ_le_place hlt hj
    rw [if_neg (by omega), if_neg (by omega)]
    rfl
  · rw [if_pos (by omega), if_pos rfl, Nat.add_sub_cancel_left]
    rfl
  · have := place_succ_le_place hgt hi
    rw [if_neg (by omega), if_neg (by omega)]
    rfl

/-- Only the first frame has CRC bytes, two of them. -/
theorem leadOf_of_lt_length (h : x < (leadOf crc body.length j).length) : 8 ≤ body.length ∧ j = 0 ∧ x < 2 := by
  unfold leadOf at h
  split at h
  next hfirst => exact ⟨hfirst.1, hfirst.2, h⟩
  next => exact absurd h (Nat.not_lt_zero x)

/-- With a bit flipped before a tail, the frames are those of a transfer whose CRC bytes are not the CRC of its body: one
with another CRC, or one with another body. -/
theorem exists_transfer_of_flip (hj : j < frameCount body.length)
    (hx : x + 1 < (transferData (crc16 body) body j).length) (hy : y < 8) :
    ∃ crc' body', body'.length = body.length ∧ crc16 body' ≠ crc' ∧ ∀ i < frameCount body.length,
      transferData crc' body' i =
        if i = j then flipBit (transferData (crc16 body) body j) x y else transferData (crc16 body) body i := by
  by_cases hlead : x < (leadOf (crc16 body) body.length j).length
  · obtain ⟨hmulti, rfl, hx2⟩ := leadOf_of_lt_length hlead
    obtain ⟨crc', hne, hflip⟩ := flipBit_crcPrefix (crc16 body) hx2 hy
    refine ⟨crc', body, rfl, hne.symm, fun i _ => ?_⟩
    split
    next hi =>
      subst hi
      rw [transferData, transferData, List.append_assoc, List.append_assoc, flipBit_append_left hlead,
        leadOf_first hmulti, leadOf_first hmulti, hflip]
    next hi => rw [transferData, transferData, leadOf_later hi, leadOf_later hi]
  · obtain ⟨z, rfl⟩ := Nat.exists_eq_add_of_le (Nat.le_of_not_lt hlead)
    have hpart : z < (partOf body j).length := by
      simp only [transferData, List.length_append, List.length_singleton] at hx
      omega
    have hbody : place body.length j + z < body.length := by
      have := place_le_length body.length (j + 1)
      rw [length_partOf] at hpart
      omega
    refine ⟨crc16 body, flipBit body (place body.length j + z) y, length_flipBit .., crc16_flipBit_ne hbody hy,
      fun i hi => ?_⟩
    rw [transferData, length_flipBit, partOf_flipBit hi hj hpart]
    split
    next hij =>
      subst hij
      rw [transferData, List.append_assoc, List.append_assoc, flipBit_append_right (Nat.le_add_right ..),
        Nat.add_sub_cancel_left, flipBit_append_left hpart]
    next => rfl

/-- So for the frames in order, one of them replaced. -/
theorem exists_transfer_of_flipped_frame (id : BitVec 29) (hj : j < frameCount body.length)
    (hx : x + 1 < (transferData (crc16 body) body j).length) (hy : y < 8) :
    ∃ crc' body', body'.length = body.length ∧ crc16 body' ≠ crc' ∧
      ((List.range (frameCount body.length)).map (transferFrame id (crc16 body) body)).set j
          ⟨id, flipBit (transferData (crc16 body) body j) x y⟩ =
        (List.range (frameCount body'.length)).map (transferFrame id crc' body') := by
  obtain ⟨crc', body', hlen, hcrc, hdata⟩ := exists_transfer_of_flip hj hx hy
  refine ⟨crc', body', hlen, hcrc, List.ext_getElem (by simp [hlen]) fun i hi _ => ?_⟩
  have hi : i < frameCount body.length := by simpa using hi
  rw [List.getElem_set]
  simp only [List.getElem_map, List.getElem_range, transferFrame_eq, hdata i hi, eq_comm (a := j)]
  split <;> rfl

end

/-! ### The slot of a transfer, frame by frame -/

/-- The bytes that a slot has taken. -/
def slotBytes (sl : Slot) : Bytes := sl.buf.readBytes 0 sl.len

@[simp] theorem length_slotBytes (sl : Slot) : (slotBytes sl).length = sl.len.val := length_readBytes ..

theorem slotBytes_openedSlot (old : Slot) (id : BitVec 29) (crc : BitVec 16) {rest : Bytes} {tail : Byte}
    (ts : BitVec 64) (h : (crcPrefix crc ++ rest ++ [tail]).length ≤ 8) :
    slotBytes (openedSlot old id (crcPrefix crc ++ rest ++ [tail]) ts h) = rest := by
  have hrest : (frameBody (crcPrefix crc ++ rest ++ [tail])).drop 2 = rest := by rw [frameBody_concat]; rfl
  have hlen : (crcPrefix crc ++ rest ++ [tail]).length - 3 = rest.length := by simp [crcPrefix]
  simp only [slotBytes, openedSlot, hrest, hlen, readBytes_writeBytes]

theorem crc_openedSlot (old : Slot) (id : BitVec 29) (crc : BitVec 16) {rest : Bytes} {tail : Byte}
    (ts : BitVec 64) (h : (crcPrefix crc ++ rest ++ [tail]).length ≤ 8) :
    (openedSlot old id (crcPrefix crc ++ rest ++ [tail]) ts h).crc = crc := by
  show (crc >>> 8).setWidth 8 ++ crc.setWidth 8 = crc
  apply BitVec.eq_of_getLsbD_eq
  intro i hi
  simp only [BitVec.getLsbD_append, BitVec.getLsbD_setWidth, BitVec.getLsbD_ushiftRight]
  by_cases h8 : i < 8
  · simp [h8]
  · simp [h8, show i - 8 < 8 by omega, show 8 + (i - 8) = i by omega]

theorem slotBytes_appended (sl : Slot) {part : Bytes} {tail : Byte}
    (h : sl.len.val + ((part ++ [tail]).length - 1) ≤ 256) :
    slotBytes (appended sl (part ++ [tail]) h) = slotBytes sl ++ part := by
  have hlen : (part ++ [tail]).length - 1 = part.length := by simp
  simp only [slotBytes, appended, frameBody_concat, hlen, readBytes_append]

/-- Slot `k`, the only one of its identifier, has taken the frames of a transfer before frame `j`. -/
structure Receiving (id : BitVec 29) (crc : BitVec 16) (body : Bytes) (j : Nat) (k : Fin 8) (u : State) : Prop where
  owner : ∀ i, Owns u i id ↔ i = k
  crc : (slotAt u.rx k).crc = crc
  bytes : slotBytes (slotAt u.rx k) = body.take (place body.length j)

section
variable {id : BitVec 29} {crc : BitVec 16} {body : Bytes} {j : Nat} {k : Fin 8} {u : State}

theorem Receiving.len (h : Receiving id crc body j k u) : (slotAt u.rx k).len.val = place body.length j := by
  rw [← length_slotBytes, h.bytes, List.length_take, Nat.min_eq_left (place_le_length _ _)]

theorem Receiving.owns (h : Receiving id crc body j k u) : Owns u k id := (h.owner k).mpr rfl

theorem Receiving.lookup_eq (h : Receiving id crc body j k u) : lookup u.rx id = k :=
  lookup_own ((holds_iff ..).mpr h.owns) fun i hi =>
    Bool.eq_false_iff.mpr fun hown => absurd ((h.owner i).mp ((holds_iff ..).mp hown)) (ne_of_lt hi)

/-- The toggle expected after frame `j - 1` (45_rx_decoder.md R271) is that of frame `j` (44_tx_encoder.md R248). -/
theorem expectedToggle_place (p : Config.Params) (hj : j < frameCount body.length) (hj0 : j ≠ 0) :
    expectedToggle p (place body.length j) = decide (j % 2 = 1) := by
  rw [place_of_lt hj, expectedToggle, if_pos (show 5 ≤ 7 * j - 2 by omega), Bool.eq_iff_iff, beq_iff_eq,
    decide_eq_true_iff, show 7 * j - 2 - 5 = 7 * (j - 1) by omega, Nat.mul_div_cancel_left _ (by decide)]
  omega

end

/-- The tail of a frame after the first (R248). -/
theorem tailOf_later {L j : Nat} (h : 8 ≤ L) (hj0 : j ≠ 0) :
    tailOf L j = tailByte false (decide (j + 1 = frameCount L)) (decide (j % 2 = 1)) 0 := (txTail_later h hj0).symm

/-! ### One frame of a transfer -/

/-- A continuation that R272 and R273 let pass is appended (R274), and ends the transfer if its tail says so (R275). -/
theorem handleOwn_accepted {s : State} {k : Fin 8} {d : Bytes} {tail : Byte} (hsot : tailSot tail = false)
    (htog : tailTog tail = expectedToggle s.params (slotAt s.rx k).len)
    (hfits : (slotAt s.rx k).len.val + (d.length - 1) ≤ 256) :
    handleOwn s k d tail =
      if tailEot tail then complete (s.setRx (setSlot s.rx k (appended (slotAt s.rx k) d hfits))) k
      else .next ((s.setRx (setSlot s.rx k (appended (slotAt s.rx k) d hfits))).setResult (.received none)) := by
  rw [handleOwn, if_neg (by simp [hsot, htog]), dif_pos hfits]
  rfl

section
variable {idIn : BitVec 32} {crc : BitVec 16} {body : Bytes} {j : Nat} {k : Fin 8} {ts : BitVec 64} {u : State}

theorem length_partOf_le (hj : j < frameCount body.length) : (partOf body j).length ≤ 7 := by
  have := length_leadOf_add_le 0 hj
  rw [length_partOf]
  omega

/-- The first frame opens a slot for its identifier (R269). -/
theorem receiveFrame_first (hlog : mtOf (idIn.setWidth 29) ≠ 255) (hmulti : 8 ≤ body.length)
    (hnone : ∀ k, ¬ Owns u k (idIn.setWidth 29)) :
    ∃ t k, receiveFrame idIn (transferData crc body 0) ts u = .next t ∧ t.result = .received none ∧
      Receiving (idIn.setWidth 29) crc body 1 k t := by
  have hpart : (partOf body 0).length = 5 := by rw [length_partOf, place_succ_of_first hmulti, place_zero]
  have hbytes : partOf body 0 = body.take (place body.length 1) := by
    rw [partOf, place_zero]
    rfl
  have hlen : (crcPrefix crc ++ partOf body 0).length ≤ 7 := by simp [crcPrefix, hpart]
  rw [transferData, leadOf_first hmulti, ← txTail_first hmulti, txTail]
  refine ⟨_, lookup u.rx (idIn.setWidth 29), receiveFrame_of_not_owns hlen hlog (by simp) hnone, rfl, ?_⟩
  rw [handleEmpty, if_pos ((isOpening_iff ..).mpr ⟨by simp, by simp, by simp, by simp [crcPrefix, hpart]⟩)]
  refine ⟨fun i => ?_, ?_, ?_⟩
  · by_cases hi : i = lookup u.rx (idIn.setWidth 29)
    · subst hi
      simp [Owns, openedSlot]
    · have := hnone i
      simpa [Owns, hi, setSlot_get, clearSlot_get] using this
  · simpa using crc_openedSlot _ _ _ _ (length_concat_le hlen)
  · simpa [← hbytes] using slotBytes_openedSlot _ _ _ _ (length_concat_le hlen)

/-- What a later frame does at the slot of its transfer: its bytes are appended, and the last one completes it. -/
theorem receiveFrame_later (h : Receiving (idIn.setWidth 29) crc body j k u) (hlog : mtOf (idIn.setWidth 29) ≠ 255)
    (hmulti : 8 ≤ body.length) (hmax : body.length ≤ 256) (hj : j < frameCount body.length) (hj0 : j ≠ 0) :
    ∃ sl : Slot, sl.occ = true ∧ sl.id = idIn.setWidth 29 ∧ sl.crc = crc ∧
      slotBytes sl = body.take (place body.length (j + 1)) ∧
      receiveFrame idIn (transferData crc body j) ts u =
        if j + 1 = frameCount body.length then complete (u.setRx (setSlot u.rx k sl)) k
        else .next ((u.setRx (setSlot u.rx k sl)).setResult (.received none)) := by
  have hlen := length_partOf_le hj
  have hfits : (slotAt u.rx k).len.val + ((partOf body j ++ [tailOf body.length j]).length - 1) ≤ 256 := by
    have := place_le_succ hj
    have := place_le_length body.length (j + 1)
    rw [List.length_append, length_partOf, h.len, List.length_singleton]
    omega
  refine ⟨appended (slotAt u.rx k) (partOf body j ++ [tailOf body.length j]) hfits, h.owns.1, h.owns.2, h.crc, ?_, ?_⟩
  · rw [slotBytes_appended, h.bytes, partOf, ← List.take_add, Nat.add_sub_cancel' (place_le_succ hj)]
  · rw [transferData, leadOf_later hj0, List.nil_append]
    have htail := tailOf_later hmulti hj0
    obtain ⟨hsot, -⟩ | ⟨-, hhandle⟩ :=
      receiveFrame_concat_cases (tail := tailOf body.length j) (ts := ts) (s := u) hlen hlog
    · simp [htail] at hsot
    · rw [hhandle, h.lookup_eq, handle_of_owns h.owns,
        handleOwn_accepted (by simp [htail]) (by simp [htail, h.len, expectedToggle_place _ hj hj0]) hfits]
      simp [htail]

/-- A frame between the first and the last leaves the slot one frame on. -/
theorem receiveFrame_middle (h : Receiving (idIn.setWidth 29) crc body j k u) (hlog : mtOf (idIn.setWidth 29) ≠ 255)
    (hmulti : 8 ≤ body.length) (hmax : body.length ≤ 256) (hj : j + 1 < frameCount body.length) (hj0 : j ≠ 0) :
    ∃ t, receiveFrame idIn (transferData crc body j) ts u = .next t ∧ t.result = .received none ∧
      Receiving (idIn.setWidth 29) crc body (j + 1) k t := by
  obtain ⟨sl, hocc, hid, hcrc, hbytes, heq⟩ :=
    receiveFrame_later (ts := ts) h hlog hmulti hmax (Nat.lt_of_succ_lt hj) hj0
  rw [if_neg (by omega)] at heq
  refine ⟨_, heq, rfl, fun i => ?_, by simpa using hcrc, by simpa using hbytes⟩
  by_cases hi : i = k
  · subst hi
    simp [Owns, hocc, hid]
  · have := h.owner i
    simpa [Owns, hi, setSlot_get] using this

/-- The last frame leaves the identifier without a slot, and no message if the CRC bytes are not the CRC of the body
(R275). -/
theorem receiveFrame_last (h : Receiving (idIn.setWidth 29) crc body j k u) (hlog : mtOf (idIn.setWidth 29) ≠ 255)
    (hmulti : 8 ≤ body.length) (hmax : body.length ≤ 256) (hj : j + 1 = frameCount body.length) (hj0 : j ≠ 0)
    (hcrc : crc16 body ≠ crc) :
    ∃ t, receiveFrame idIn (transferData crc body j) ts u = .next t ∧ t.result = .received none ∧
      ∀ i, ¬ Owns t i (idIn.setWidth 29) := by
  obtain ⟨sl, -, -, hslcrc, hbytes, heq⟩ := receiveFrame_later (ts := ts) h hlog hmulti hmax (by omega) hj0
  rw [place_succ_of_last hj, List.take_length, slotBytes] at hbytes
  rw [if_pos hj, complete_eq] at heq
  refine ⟨_, heq, ?_, fun i => ?_⟩
  · simp [hbytes, hslcrc, hcrc]
  · by_cases hi : i = k
    · subst hi
      simp [Owns]
    · have := h.owner i
      simpa [Owns, hi, setSlot_get, clearSlot_get] using this

end

/-! ### All the frames of a transfer -/

/-- Frame `j` of a transfer as it is presented to a receiver. -/
def busFrame (idIn : BitVec 32) (crc : BitVec 16) (body : Bytes) (ts : Nat → BitVec 64) (j : Nat) :
    BitVec 32 × Bytes × BitVec 64 := (idIn, transferData crc body j, ts j)

theorem onBus_transfer (id : BitVec 29) (crc : BitVec 16) (body : Bytes) (ts : Nat → BitVec 64) (n : Nat) :
    onBus ts ((List.range n).map (transferFrame id crc body)) =
      (List.range n).map (busFrame (id.setWidth 32) crc body ts) := by
  apply List.ext_getElem (by simp [onBus])
  intro i hi _
  simp [onBus, busFrame, transferFrame_eq]

/-- No message for any of `n` frames, and no slot of the identifier after. -/
def Lost (id : BitVec 29) (n : Nat) (out : List (Option ReceivedMessage) × State) : Prop :=
  out.1 = List.replicate n none ∧ ∀ k, ¬ Owns out.2 k id

theorem feed_cons_none {idIn : BitVec 32} {d : Bytes} {ts : BitVec 64} {s t : State}
    (ht : receiveFrame idIn d ts s = .next t) (hresult : t.result = .received none)
    (rest : List (BitVec 32 × Bytes × BitVec 64)) :
    feed ((idIn, d, ts) :: rest) s = (none :: (feed rest t).1, (feed rest t).2) := by
  have hexec : exec (.rxFrame idIn d ts) s = .next t := ht
  simp [feed, hexec, hresult]

theorem lost_cons {id : BitVec 29} {idIn : BitVec 32} {d : Bytes} {ts : BitVec 64} {s t : State} {n : Nat}
    {rest : List (BitVec 32 × Bytes × BitVec 64)} (ht : receiveFrame idIn d ts s = .next t)
    (hresult : t.result = .received none) (hrest : Lost id n (feed rest t)) :
    Lost id (n + 1) (feed ((idIn, d, ts) :: rest) s) := by
  obtain ⟨hanswers, hslots⟩ := hrest
  rw [feed_cons_none ht hresult]
  exact ⟨by rw [hanswers, List.replicate_succ], hslots⟩

section
variable {idIn : BitVec 32} {crc : BitVec 16} {body : Bytes} {ts : Nat → BitVec 64} {u : State}

/-- By induction over the frames left. -/
theorem feed_receiving_lost {j m : Nat} {k : Fin 8} (h : Receiving (idIn.setWidth 29) crc body j k u)
    (hlog : mtOf (idIn.setWidth 29) ≠ 255) (hmulti : 8 ≤ body.length) (hmax : body.length ≤ 256)
    (hcrc : crc16 body ≠ crc) (hj0 : j ≠ 0) (hm : j + (m + 1) = frameCount body.length) :
    Lost (idIn.setWidth 29) (m + 1) (feed ((List.range' j (m + 1)).map (busFrame idIn crc body ts)) u) := by
  induction m generalizing j u with
  | zero =>
    obtain ⟨t, ht, hresult, hnone⟩ := receiveFrame_last (ts := ts j) h hlog hmulti hmax hm hj0 hcrc
    exact lost_cons ht hresult ⟨rfl, hnone⟩
  | succ m ih =>
    obtain ⟨t, ht, hresult, hnext⟩ := receiveFrame_middle (ts := ts j) h hlog hmulti hmax (by omega) hj0
    exact lost_cons ht hresult (ih hnext (Nat.succ_ne_zero j) (by omega))

/-- A transfer whose CRC bytes are not the CRC of its body is lost. -/
theorem feed_transfer_lost (hlog : mtOf (idIn.setWidth 29) ≠ 255) (hmulti : 8 ≤ body.length)
    (hmax : body.length ≤ 256) (hcrc : crc16 body ≠ crc) (hnone : ∀ k, ¬ Owns u k (idIn.setWidth 29)) :
    Lost (idIn.setWidth 29) (frameCount body.length)
      (feed ((List.range (frameCount body.length)).map (busFrame idIn crc body ts)) u) := by
  obtain ⟨m, hm⟩ : ∃ m, 1 + (m + 1) = frameCount body.length := by
    rw [frameCount_multi hmulti]
    exact ⟨(body.length + 1) / 7 - 1, by omega⟩
  obtain ⟨t, k, ht, hresult, hfirst⟩ := receiveFrame_first (ts := ts 0) hlog hmulti hnone
  rw [← hm, Nat.add_comm 1, List.range_eq_range']
  exact lost_cons ht hresult (feed_receiving_lost hfirst hlog hmulti hmax hcrc one_ne_zero hm)

end

/-! ### The obligation -/

/-- What `TX_LOAD` leaves (44_tx_encoder.md R240): the start of a transfer of the body, with its CRC and an identifier of
the class. -/
theorem execTxLoad_next {sel : BitVec 8} {body : Bytes} {nt : BitVec 6} {ni : BitVec 12} {s t : State}
    (h : execTxLoad sel body nt ni s = .next t) :
    Loaded t.tx body ∧ t.tx.offset.val = 0 ∧ t.tx.toggle = false ∧ t.tx.crc = crc16 body ∧ mtOf t.tx.id = sel ∧
      sel ≠ 255 := by
  unfold execTxLoad at h
  split at h
  · cases h
  next c hc =>
    split at h
    · cases h
    next hlen =>
      obtain rfl := deliverTx_next.mp h
      have hlen : body.length = sizeBytes c := not_not.mp hlen
      refine ⟨⟨hlen, fun x hx => ?_⟩, rfl, rfl, rfl, ?_, ?_⟩
      · have hx : x < body.length := hlen ▸ hx
        simp [read_writeBytes, hx, at']
      · show mtOf ((wireId s.params c (nt.setWidth 32) (ni.setWidth 32)).setWidth 29) = sel
        rw [← messageTypeOfId_eq_mtOf, messageTypeOfId_setWidth, wireId, makeId_of_fields, identMessageType_identWord,
          messageTypeOf_of_classOf hc]
      · rintro rfl
        cases hc

/-- Settles O51: with the bit flipped, the CRC bytes of the transfer are not the CRC of its body. -/
theorem flippedBitLosesTransfer : Obligations.FlippedBitLosesTransfer := by
  intro row sel body nt ni ts s loaded j x y f _ _ hmulti hlen hload hf hx hy u hnone
  obtain ⟨hloaded, hoffset, htoggle, hcrc, hmt, hlog⟩ := execTxLoad_next hload
  have hmax : body.length ≤ 64 := hloaded.1 ▸ Nat.le_of_lt_succ loaded.tx.len.isLt
  obtain ⟨hframes, -⟩ := send_of_loaded hloaded hoffset htoggle
  rw [hcrc] at hframes
  rw [← hlen] at hmulti
  have hj : j < frameCount body.length := by
    have := (List.getElem?_eq_some_iff.mp hf).1
    simpa [hframes] using this
  obtain rfl : transferFrame loaded.tx.id (crc16 body) body j = f := by simpa [hframes, hj] using hf
  obtain ⟨crc', body', hlen', hcrc', hflipped⟩ := exists_transfer_of_flipped_frame loaded.tx.id hj hx hy
  rw [← hframes] at hflipped
  have hid : (loaded.tx.id.setWidth 32).setWidth 29 = loaded.tx.id := by simp
  have hlost := feed_transfer_lost (idIn := loaded.tx.id.setWidth 32) (ts := ts) (u := u) (by rwa [hid, hmt])
    (by omega) (by omega) hcrc' (by rwa [hid])
  rw [← onBus_transfer, ← hflipped, hid, hlen', hlen] at hlost
  exact hlost

end Sys2Proof.Proofs
end

section
/-! SUPPORT. The family of 44_tx_encoder.md: what `TX_LOAD` leaves in the TX unit, and what `TX_NEXT` emits in each of
its four shapes when the buffer holds the body that was loaded (`txEmit_of_loaded`). -/

namespace Sys2Proof.Proofs

open Sys2Proof.Machine Sys2Proof.Claims

theorem exec_txLoad (sel : BitVec 8) (body : Bytes) (nt : BitVec 6) (ni : BitVec 12) (s : State) :
    exec (.txLoad sel body nt ni) s = execTxLoad sel body nt ni s := rfl

theorem exec_txNext (s : State) : exec .txNext s = execTxNext s := rfl

/-! ### `TX_LOAD` (R240) -/

/-- The TX unit after the `TX_LOAD` of a body of class `c`. -/
def loadedTx (c : MsgClass) (body : Bytes) (nt : BitVec 6) (ni : BitVec 12) (s : State) : TxUnit where
  id := (wireId s.params c (nt.setWidth 32) (ni.setWidth 32)).setWidth 29
  buf := s.tx.buf.writeBytes 0 body
  len := ⟨sizeBytes c, sizeBytes_lt c⟩
  crc := crc16 body
  offset := 0
  toggle := false

section
variable {sel : BitVec 8} {c : MsgClass} {body : Bytes} {nt : BitVec 6} {ni : BitVec 12} {s : State}

theorem execTxLoad_unknown (h : ¬ Known sel) : execTxLoad sel body nt ni s = .refused .unknownClass := by
  simp only [execTxLoad, classOf_of_not_known h]

theorem execTxLoad_badLength (hc : classOf sel = some c) (h : body.length ≠ sizeBytes c) :
    execTxLoad sel body nt ni s = .refused .badBodyLength := by
  simp only [execTxLoad, hc, if_pos h]

theorem execTxLoad_of_class (hc : classOf sel = some c) (h : body.length = sizeBytes c) :
    execTxLoad sel body nt ni s = .next { s with tx := loadedTx c body nt ni s, result := .nothing } := by
  simp only [execTxLoad, hc, if_neg (not_not.mpr h)]
  rfl

/-- The bytes of the buffer from the body's end on are left as they were. -/
theorem read_loadedTx_of_le {k : Nat} (hk : body.length ≤ k) :
    (loadedTx c body nt ni s).buf.read k = s.tx.buf.read k := by
  rw [loadedTx, read_writeBytes, if_neg (by omega)]

theorem exec_wireId_of_class (hc : classOf sel = some c) (x y : BitVec 32) :
    exec (.wireId sel x y) s = .next { s with result := .u32 (wireId s.params c x y) } := by
  simp only [exec_wireId, execWireId, hc]
  rfl

/-- `tx_id` holds the whole `WIRE_ID`: an identifier of fields in their widths has 29 bits (41_ext_id.md R143). -/
theorem toNat_id_loadedTx :
    (loadedTx c body nt ni s).id.toNat = (wireId s.params c (nt.setWidth 32) (ni.setWidth 32)).toNat := by
  rw [loadedTx, wireId, makeId_of_fields, BitVec.toNat_setWidth]
  exact Nat.mod_eq_of_lt (toNat_identWord_lt.mpr rfl)

end

/-! ### The shapes of `TX_NEXT` (R242) -/

section
variable {s : State}

/-- SINGLE (R243). -/
theorem execTxNext_single (hstart : s.tx.offset = 0) (hpos : 1 ≤ s.tx.len.val) (hlen : s.tx.len.val ≤ 7) :
    execTxNext s = txEmit s [] s.tx.len (txTail true true false) s.tx.len s.tx.toggle := by
  have hmore : s.tx.offset < s.tx.len := hstart ▸ hpos
  exact (if_pos hmore).trans (if_pos ⟨hstart, hlen⟩)

/-- FIRST (R244). -/
theorem execTxNext_first (hstart : s.tx.offset = 0) (hlen : 8 ≤ s.tx.len.val) :
    execTxNext s = txEmit s (crcPrefix s.tx.crc) 5 (txTail true false false) 5 (!s.tx.toggle) := by
  have hmore : s.tx.offset < s.tx.len := hstart ▸ Nat.zero_lt_of_lt hlen
  have hsingle : ¬ (s.tx.offset = 0 ∧ s.tx.len.val ≤ 7) := fun h => by omega
  exact (if_pos hmore).trans ((if_neg hsingle).trans (if_pos hstart))

/-- LAST (R245). -/
theorem execTxNext_last (hstarted : s.tx.offset ≠ 0) (hmore : s.tx.offset < s.tx.len)
    (hrest : s.tx.len.val ≤ s.tx.offset.val + 7) :
    execTxNext s =
      txEmit s [] (s.tx.len - s.tx.offset) (txTail false true s.tx.toggle) s.tx.len (!s.tx.toggle) :=
  (if_pos hmore).trans ((if_neg fun h => hstarted h.1).trans ((if_neg hstarted).trans (dif_pos hrest)))

/-- MIDDLE (R246). -/
theorem execTxNext_middle (hstarted : s.tx.offset ≠ 0) (hrest : s.tx.offset.val + 7 < s.tx.len.val) :
    execTxNext s =
      txEmit s [] 7 (txTail false false s.tx.toggle) ⟨s.tx.offset.val + 7, by omega⟩ (!s.tx.toggle) := by
  have hmore : s.tx.offset < s.tx.len := Fin.lt_def.mpr (by omega)
  exact (if_pos hmore).trans
    ((if_neg fun h => hstarted h.1).trans ((if_neg hstarted).trans (dif_neg (Nat.not_le.mpr hrest))))

/-- The frame that is emitted holds the part of the body that it reads of the buffer; only `tx_offset` and `tx_toggle`
are written. -/
theorem txEmit_of_loaded {body : Bytes} (hloaded : Loaded s.tx body) {count : Nat}
    (hcount : s.tx.offset.val + count ≤ s.tx.len.val) (pre : Bytes) (tail : Byte) (o : Fin 65) (g : Bool) :
    txEmit s pre count tail o g =
      .next { s with
        tx := { s.tx with offset := o, toggle := g }
        result := .frame s.tx.id (pre ++ (body.drop s.tx.offset).take count ++ [tail]) } := by
  have hbytes : s.tx.buf.readBytes s.tx.offset count = (body.drop s.tx.offset).take count := by
    rw [readBytes_sub s.tx.buf (hloaded.1 ▸ hcount), readBytes_of_loaded hloaded]
  rw [← hbytes]
  rfl

end

/-- The tail of a LAST frame (R245). -/
theorem txTail_last (g : Bool) : txTail false true g = if g then 0x60 else 0x40 := by cases g <;> rfl

/-- The tail of a MIDDLE frame (R246). -/
theorem txTail_middle (g : Bool) : txTail false false g = if g then 0x20 else 0x00 := by cases g <;> rfl

/-! ### The obligations -/

/-- Settles O31: the unit after the load is `loadedTx`. -/
theorem txLoad : Obligations.TxLoad := by
  refine fun sel body nt ni => ⟨selects_of_encode rfl rfl, fun s => ⟨execTxLoad_unknown, fun r hr hmt => ?_⟩⟩
  obtain ⟨c, hc, rfl⟩ := classOf_of_row hr hmt
  refine ⟨execTxLoad_badLength hc, fun hlen => ?_⟩
  have hload := execTxLoad_of_class (nt := nt) (ni := ni) (s := s) hc hlen
  obtain ⟨hloaded, hoffset, htoggle, hcrc, -, -⟩ := execTxLoad_next hload
  exact ⟨loadedTx c body nt ni s, _, _, hload, exec_wireId_of_class hc _ _, exec_crc16 body s, toNat_id_loadedTx, rfl,
    hloaded, fun k hk => read_loadedTx_of_le (hlen.trans_le hk), hcrc, hoffset, htoggle⟩

/-- Settles O33. -/
theorem txNextAtStart : Obligations.TxNextAtStart := by
  intro s body hloaded hoffset
  have hstart : s.tx.offset = 0 := Fin.ext hoffset
  have hlen := hloaded.1
  refine ⟨fun hpos hsingle => ?_, fun hmulti => ?_⟩
  · rw [exec_txNext, execTxNext_single hstart hpos hsingle, txEmit_of_loaded hloaded (by omega), hoffset,
      List.drop_zero, ← hlen, List.take_length]
    rfl
  · rw [exec_txNext, execTxNext_first hstart hmulti, txEmit_of_loaded hloaded (by omega), hoffset, List.drop_zero,
      crcPrefix_eq]
    rfl

/-- Settles O34: the LAST frame takes the rest of the body, a MIDDLE frame the next 7 bytes of it. -/
theorem txNextLater : Obligations.TxNextLater := by
  intro s body hloaded hpos hmore
  have hstarted : s.tx.offset ≠ 0 := Fin.pos_iff_ne_zero.mp hpos
  refine ⟨fun hrest => ?_, fun hrest => ⟨⟨s.tx.offset.val + 7, by omega⟩, rfl, ?_⟩⟩
  · have hall : (body.drop s.tx.offset).length ≤ s.tx.len.val - s.tx.offset.val := by
      rw [List.length_drop, hloaded.1]
    rw [exec_txNext, execTxNext_last hstarted hmore hrest, txEmit_of_loaded hloaded (by omega),
      List.take_of_length_le hall, txTail_last, List.nil_append]
  · rw [exec_txNext, execTxNext_middle hstarted hrest, txEmit_of_loaded hloaded hrest.le, txTail_middle,
      List.nil_append]

/-- Settles O35: the body of `PreUnixTime` is empty, so nothing of it is left to send. -/
theorem txZeroLengthBody : Obligations.TxZeroLengthBody := by
  intro nt ni s
  obtain ⟨t, hload, hlen⟩ : ∃ t, exec (.txLoad 8 [] nt ni) s = .next t ∧ t.tx.len.val = 0 :=
    ⟨_, (exec_txLoad ..).trans (execTxLoad_of_class (c := .preUnixTime) rfl rfl), rfl⟩
  have hdone : t.tx.len.val ≤ t.tx.offset.val := hlen.trans_le (Nat.zero_le _)
  exact ⟨t, hload, hlen, execTxHasNext_of_done hdone, execTxNext_of_done hdone⟩

end Sys2Proof.Proofs
end

section
/-! SUPPORT. The family of 45_rx_decoder.md, one frame: where `LOOKUP` sends it (R267), and what it finds there: a slot of
its own (`receives_iff_of_owner`), or one that is empty or emptied for it (`receives_opening`, `receives_stray`). -/

namespace Sys2Proof.Proofs

open Sys2Proof.Machine Sys2Proof.Claims

theorem exec_rxFrame (idIn : BitVec 32) (d : Bytes) (ts : BitVec 64) (s : State) :
    exec (.rxFrame idIn d ts) s = receiveFrame idIn d ts s := rfl

/-! ### The slot that `LOOKUP` selects (R267) -/

section
variable {s : State} {k : Fin 8} {id : BitVec 29}

theorem holds_eq_false_of_not_owns (h : ∀ j, ¬ Owns s j id) (j : Fin 8) : holds s.rx j id = false :=
  Bool.eq_false_iff.mpr fun hj => h j ((holds_iff ..).mp hj)

theorem lookup_of_only_owner (hk : Owns s k id) (honly : ∀ j, Owns s j id → j = k) : lookup s.rx id = k :=
  lookup_own ((holds_iff ..).mpr hk) fun j hj =>
    Bool.eq_false_iff.mpr fun hown => absurd (honly j ((holds_iff ..).mp hown)) (ne_of_lt hj)

/-- An identifier with no slot of its own takes an empty one, if there is one. -/
theorem occ_lookup_of_empty (hnone : ∀ j, ¬ Owns s j id) (hempty : (slotAt s.rx k).occ = false) :
    (slotAt s.rx (lookup s.rx id)).occ = false := by
  obtain hown | ⟨-, hocc, -⟩ | ⟨-, hfull, -⟩ := lookup_cases s.rx id
  · exact absurd ((holds_iff ..).mp hown) (hnone _)
  · exact hocc
  · simp [hfull k] at hempty

end

/-! ### Bits that the decoder ignores (R262, R265) -/

theorem handleOwn_concat_congr (s : State) (k : Fin 8) (body : Bytes) (sot eot tog : Bool) (r r' : BitVec 5) :
    handleOwn s k (body ++ [tailByte sot eot tog r]) (tailByte sot eot tog r) =
      handleOwn s k (body ++ [tailByte sot eot tog r']) (tailByte sot eot tog r') := by
  simp [handleOwn, appended, frameBody_concat]

theorem openedSlot_concat_congr (old : Slot) (id : BitVec 29) {body : Bytes} (tail tail' : Byte) (ts : BitVec 64)
    (hmin : 2 ≤ body.length) (h : (body ++ [tail]).length ≤ 8) (h' : (body ++ [tail']).length ≤ 8) :
    openedSlot old id (body ++ [tail]) ts h = openedSlot old id (body ++ [tail']) ts h' := by
  obtain ⟨c0, c1, rest, rfl⟩ : ∃ c0 c1 rest, body = c0 :: c1 :: rest := by
    match body, hmin with
    | c0 :: c1 :: rest, _ => exact ⟨c0, c1, rest, rfl⟩
  simp only [openedSlot, frameBody_concat]
  simp

/-- Only a frame of two bytes and more before its tail is looked into, and its tail is not. -/
theorem handleEmpty_concat_congr (rx : RxUnit) (k : Fin 8) (id : BitVec 29) (body : Bytes) (sot eot tog : Bool)
    (r r' : BitVec 5) (ts : BitVec 64) (h : (body ++ [tailByte sot eot tog r]).length ≤ 8)
    (h' : (body ++ [tailByte sot eot tog r']).length ≤ 8) :
    handleEmpty rx k id (body ++ [tailByte sot eot tog r]) (tailByte sot eot tog r) ts h =
      handleEmpty rx k id (body ++ [tailByte sot eot tog r']) (tailByte sot eot tog r') ts h' := by
  have hopening : isOpening (body ++ [tailByte sot eot tog r]) (tailByte sot eot tog r) =
      isOpening (body ++ [tailByte sot eot tog r']) (tailByte sot eot tog r') := by simp [isOpening]
  rw [handleEmpty, handleEmpty, ← hopening]
  split
  next hopen =>
    have hmin : 4 ≤ (body ++ [tailByte sot eot tog r]).length := ((isOpening_iff ..).mp hopen).2.2.2
    rw [openedSlot_concat_congr _ _ _ _ _ (by simp at hmin; omega) h h']
  next => rfl

theorem handle_concat_congr (s : State) (k : Fin 8) (id : BitVec 29) (body : Bytes) (sot eot tog : Bool)
    (r r' : BitVec 5) (ts : BitVec 64) (h : (body ++ [tailByte sot eot tog r]).length ≤ 8)
    (h' : (body ++ [tailByte sot eot tog r']).length ≤ 8) :
    handle s k id (body ++ [tailByte sot eot tog r]) (tailByte sot eot tog r) ts h =
      handle s k id (body ++ [tailByte sot eot tog r']) (tailByte sot eot tog r') ts h' := by
  simp only [handle, handleEmpty_concat_congr _ _ _ _ _ _ _ r r' ts h h', handleOwn_concat_congr _ _ _ _ _ _ r r']

/-- The outcome depends on the masked identifier, the bytes before the tail and the flags in it. -/
theorem receiveFrame_concat_congr {a b : BitVec 32} (hid : a.setWidth 29 = b.setWidth 29) (body : Bytes)
    (sot eot tog : Bool) (r r' : BitVec 5) (ts : BitVec 64) (s : State) :
    receiveFrame a (body ++ [tailByte sot eot tog r]) ts s = receiveFrame b (body ++ [tailByte sot eot tog r']) ts s := by
  simp only [receiveFrame, hid]
  by_cases hlen : body.length + 1 ≤ 8
  · have hhandle := handle_concat_congr s (lookup s.rx (b.setWidth 29)) (b.setWidth 29) body sot eot tog r r' ts
      (by simpa using hlen) (by simpa using hlen)
    simp [hlen, hhandle, receiveSingle, frameBody_concat]
  · simp [hlen]

/-! ### A frame that is not single, by the slot it comes to -/

section
variable {idIn : BitVec 32} {body rest : Bytes} {c0 c1 : Byte} {sot eot tog : Bool} {r : BitVec 5} {ts : BitVec 64}
  {s t : State} {k : Fin 8}

theorem receives_iff :
    Receives s idIn body sot eot tog r ts t ↔
      receiveFrame idIn (body ++ [tailByte sot eot tog r]) ts s = .next t := by
  rw [Receives, exec_rxFrame, tail_eq_tailByte]

theorem tail_not_single (h : ¬ (sot = true ∧ eot = true)) :
    (tailSot (tailByte sot eot tog r) && tailEot (tailByte sot eot tog r)) = false := by simpa using h

/-- An opening frame of an identifier with no slot opens the one that `LOOKUP` selects (R269, R276). -/
theorem receives_opening (hpos : 1 ≤ rest.length) (hmax : rest.length ≤ 5) (hlog : mtOf (idIn.setWidth 29) ≠ 255)
    (hnone : ∀ j, ¬ Owns s j (idIn.setWidth 29)) :
    ∃ t, Receives s idIn ([c0, c1] ++ rest) true false false r ts t ∧
      Opened s t (lookup s.rx (idIn.setWidth 29)) (idIn.setWidth 29) ts c0 c1 rest := by
  have hlen : ([c0, c1] ++ rest).length ≤ 7 := by simp; omega
  refine ⟨_, receives_iff.mpr (receiveFrame_of_not_owns hlen hlog (tail_not_single (by simp)) hnone), ?_⟩
  rw [handleEmpty, if_pos ((isOpening_iff ..).mpr ⟨by simp, by simp, by simp, by simpa using hpos⟩)]
  exact opened_setSlot ..

/-- Any other frame of an identifier with no slot leaves the one that `LOOKUP` selects empty (R270, R276). -/
theorem receives_stray (hlen : body.length ≤ 7) (hlog : mtOf (idIn.setWidth 29) ≠ 255)
    (hnone : ∀ j, ¬ Owns s j (idIn.setWidth 29)) (hmulti : ¬ (sot = true ∧ eot = true))
    (hstray : ¬ (sot = true ∧ eot = false ∧ tog = false ∧ 4 ≤ body.length + 1)) :
    Receives s idIn body sot eot tog r ts
      ((s.setRx (clearSlot s.rx (lookup s.rx (idIn.setWidth 29)))).setResult (.received none)) := by
  have hclosed : ¬ isOpening (body ++ [tailByte sot eot tog r]) (tailByte sot eot tog r) = true := by
    simpa [isOpening_iff] using hstray
  rw [receives_iff, receiveFrame_of_not_owns hlen hlog (tail_not_single hmulti) hnone, handleEmpty, if_neg hclosed]

/-- A frame of the one slot that has its identifier is handled there (R271 to R275). -/
theorem receives_iff_of_owner (hlen : body.length ≤ 7) (hlog : mtOf (idIn.setWidth 29) ≠ 255)
    (hk : Owns s k (idIn.setWidth 29)) (honly : ∀ j, Owns s j (idIn.setWidth 29) → j = k)
    (hmulti : ¬ (sot = true ∧ eot = true)) :
    Receives s idIn body sot eot tog r ts t ↔
      handleOwn s k (body ++ [tailByte sot eot tog r]) (tailByte sot eot tog r) = .next t := by
  have hhandle := tail_not_single (tog := tog) (r := r) hmulti
  obtain ⟨hsot, heot, -⟩ | ⟨-, h⟩ :=
    receiveFrame_concat_cases (tail := tailByte sot eot tog r) (ts := ts) (s := s) hlen hlog
  · simp [hsot, heot] at hhandle
  · rw [receives_iff, h, lookup_of_only_owner hk honly, handle_of_owns hk]

end

theorem onlySlot_setRx {s : State} {k : Fin 8} {rx : RxUnit} {m : Option ReceivedMessage}
    (h : ∀ j, j ≠ k → slotAt rx j = slotAt s.rx j) : OnlySlot s ((s.setRx rx).setResult (.received m)) k :=
  ⟨rfl, rfl, rfl, h⟩

theorem onlySlot_clearSlot (s : State) (k : Fin 8) (m : Option ReceivedMessage) :
    OnlySlot s ((s.setRx (clearSlot s.rx k)).setResult (.received m)) k :=
  onlySlot_setRx fun j hj => by rw [clearSlot_get, if_neg hj]

/-! ### A continuation that R272 and R273 let pass -/

/-- The end of a transfer in terms of the bytes that the slot has taken (R275). -/
theorem complete_of_slotBytes {s : State} {k : Fin 8} {body : Bytes} (h : slotBytes (slotAt s.rx k) = body) :
    complete s k = .next ((s.setRx (clearSlot s.rx k)).setResult (.received
      (if crc16 body = (slotAt s.rx k).crc then
        (decodeMessage s.params (mtOf (slotAt s.rx k).id) body).map fun m => ⟨(slotAt s.rx k).id, crc16 body, m⟩
      else none))) := by
  subst h
  rw [complete_eq, messageTypeOfId_eq_mtOf, slotBytes]

theorem clearSlot_setSlot (rx : RxUnit) (k : Fin 8) (sl : Slot) : clearSlot (setSlot rx k sl) k = setSlot rx k sl.clear := by
  rw [clearSlot, setSlot_get_self, setSlot_setSlot]

/-! ### The obligations -/

/-- Settles O39. -/
theorem rxReset : Obligations.RxReset :=
  ⟨selects_of_ignoresSel rfl rfl rfl, fun s => ⟨clearAll s.rx, rfl, clearAll_get s.rx⟩⟩

/-- Settles O40. -/
theorem rxIgnoresReservedBits : Obligations.RxIgnoresReservedBits := by
  intro a b body sot eot tog r r' ts s hid
  rw [exec_rxFrame, exec_rxFrame, tail_eq_tailByte, tail_eq_tailByte]
  refine receiveFrame_concat_congr ?_ body sot eot tog r r' ts s
  rw [BitVec.setWidth_eq_extractLsb' (by decide), BitVec.setWidth_eq_extractLsb' (by decide)]
  exact hid

/-- Settles O41. -/
theorem rxFiltersAndLengths : Obligations.RxFiltersAndLengths := by
  refine fun idIn d ts s => ⟨fun hlong => ?_, fun hlen hlog => ?_, ?_⟩
  · exact dif_neg (Nat.not_le.mpr hlong)
  · exact receiveFrame_log hlen ((messageTypeOfId_eq_mtOf _).trans hlog) ts s
  · obtain ⟨hlong, -⟩ | ⟨-, -, h⟩ | ⟨-, -, tail, hlast, -⟩ := receiveFrame_cases idIn [] ts s
    · simp at hlong
    · exact h
    · simp at hlast

/-- Settles O42. -/
theorem rxSingleFrame : Obligations.RxSingleFrame := by
  refine fun idIn body r ts s hlen hlog => ⟨⟨_, _, exec_decode _ _ _, exec_crc16 _ _, receives_iff.mpr ?_⟩,
    receives_iff.mpr ?_⟩
  · exact execFrameSingle_decodes hlen hlog
  · exact execFrameSingleBadtog_rejects hlen hlog

/-- Settles O43: `LOOKUP` selects the first empty slot. -/
theorem rxOpens : Obligations.RxOpens := by
  intro idIn c0 c1 rest r ts s k hpos hmax hlog hnone hempty hfirst
  have hk : lookup s.rx (idIn.setWidth 29) = k := lookup_empty (holds_eq_false_of_not_owns hnone) hempty hfirst
  rw [← hk]
  exact receives_opening hpos hmax hlog hnone

/-- Settles O44: the slot that `LOOKUP` selects is empty already. -/
theorem rxDropsStrays : Obligations.RxDropsStrays := by
  intro idIn body sot eot tog r ts s k hlen hlog hnone hempty hmulti hstray
  have h := receives_stray (r := r) (ts := ts) hlen hlog hnone hmulti hstray
  rwa [clearSlot_of_empty (occ_lookup_of_empty hnone hempty)] at h

/-- Settles O45. -/
theorem rxPolices : Obligations.RxPolices := by
  intro idIn body sot eot tog r ts s k hlen hlog hk honly hmulti hpoliced
  rw [receives_iff_of_owner hlen hlog hk honly hmulti, handleOwn,
    if_pos (by simpa [← expected_eq_expectedToggle] using hpoliced)]
  rfl

/-- Settles O46. -/
theorem rxOverflows : Obligations.RxOverflows := by
  intro idIn body eot tog r ts s k hlen hlog hk honly htog hover
  refine ⟨_, (receives_iff_of_owner hlen hlog hk honly (by simp)).mpr ?_, rfl, onlySlot_clearSlot s k none, by simp⟩
  rw [handleOwn, if_neg (by simp [htog, expected_eq_expectedToggle]), dif_neg (by simpa using hover)]
  rfl

/-- Settles O47. -/
theorem rxAppends : Obligations.RxAppends := by
  intro idIn body tog r ts s k hlen hlog hk honly htog hfits
  have hsum : (slotAt s.rx k).len.val + ((body ++ [tailByte false false tog r]).length - 1) ≤ 256 := by simpa using hfits
  have hown := handleOwn_accepted (tail := tailByte false false tog r) (by simp)
    (by rw [tailTog_tailByte, htog, expected_eq_expectedToggle]) hsum
  rw [if_neg (by simp)] at hown
  refine ⟨_, (receives_iff_of_owner hlen hlog hk honly (by simp)).mpr hown, rfl,
    onlySlot_setRx fun j hj => setSlot_get_of_ne _ _ hj, ?_⟩
  simp only [Owns, setResult_rx, setRx_rx, setSlot_get_self, appended, frameBody_concat, read_writeBytes,
    true_and]
  exact ⟨hk, by simp, fun x => rfl⟩

/-- Settles O48: the bytes of the slot with those of the frame are the whole body. -/
theorem rxCompletes : Obligations.RxCompletes := by
  intro idIn old body tog r ts s k hlen hlog hk honly htog hold hbytes hfits
  have hsum : (slotAt s.rx k).len.val + ((body ++ [tailByte false true tog r]).length - 1) ≤ 256 := by
    simpa [← hold] using hfits
  have hold' : slotBytes (slotAt s.rx k) = old :=
    readBytes_eq_iff.mpr ⟨hold, fun x hx => by
      rw [← hold] at hx
      rw [Nat.zero_add, hbytes x hx]
      simp [at', hx]⟩
  have hown := handleOwn_accepted (tail := tailByte false true tog r) (by simp)
    (by rw [tailTog_tailByte, htog, expected_eq_expectedToggle]) hsum
  have hwhole : slotBytes (slotAt (setSlot s.rx k (appended (slotAt s.rx k) (body ++ [tailByte false true tog r]) hsum)) k) =
      old ++ body := by rw [setSlot_get_self, slotBytes_appended, hold']
  rw [if_pos (by simp), complete_of_slotBytes hwhole, setRx_rx, clearSlot_setSlot] at hown
  refine ⟨_, _, _, (receives_iff_of_owner hlen hlog hk honly (by simp)).mpr hown,
    onlySlot_setRx fun j hj => setSlot_get_of_ne _ _ hj, by simp, exec_decode _ _ _, exec_crc16 _ _, ?_⟩
  simp [appended, hk.2]

/-- Settles O49: `LOOKUP` selects the oldest slot. -/
theorem rxEvicts : Obligations.RxEvicts := by
  intro idIn r ts s k hlog hnone hfull holdest hfirst
  have hk : lookup s.rx (idIn.setWidth 29) = k :=
    (lookup_full (holds_eq_false_of_not_owns hnone) hfull).trans (lru_eq holdest hfirst)
  rw [← hk]
  exact ⟨fun c0 c1 rest hpos hmax => receives_opening hpos hmax hlog hnone,
    fun body sot eot tog hlen hmulti hstray => ⟨_, receives_stray hlen hlog hnone hmulti hstray, rfl,
      onlySlot_clearSlot .., by simp⟩⟩

end Sys2Proof.Proofs
end

section
/-! SUPPORT. The family of 45_rx_decoder.md, frames one after another: what each frame of a list does, one at a time, says
what the list does (`feed_of_steps`). So a whole transfer is delivered (R278), and the oldest transfer of a full decoder
gives way (R279). -/

namespace Sys2Proof.Proofs

open Sys2Proof.Machine Sys2Proof.Claims

/-! ### Frames one after another -/

theorem feed_cons {idIn : BitVec 32} {d : Bytes} {ts : BitVec 64} {s t : State} {m : Option ReceivedMessage}
    (ht : receiveFrame idIn d ts s = .next t) (hresult : t.result = .received m)
    (rest : List (BitVec 32 × Bytes × BitVec 64)) :
    feed ((idIn, d, ts) :: rest) s = (m :: (feed rest t).1, (feed rest t).2) := by
  have hexec : exec (.rxFrame idIn d ts) s = .next t := ht
  simp [feed, hexec, hresult]

/-- If frame `j` answers `answer j` from every state of `P j` and leaves one of `P (j + 1)`, then so do they all in turn. -/
theorem feed_of_steps {fs : List (BitVec 32 × Bytes × BitVec 64)} {answer : Nat → Option ReceivedMessage}
    {P : Nat → State → Prop} {s : State} (hstart : P 0 s)
    (hstep : ∀ (j : Nat) (hj : j < fs.length) (u : State), P j u →
      ∃ t, receiveFrame fs[j].1 fs[j].2.1 fs[j].2.2 u = .next t ∧ t.result = .received (answer j) ∧ P (j + 1) t) :
    (feed fs s).1 = (List.range fs.length).map answer ∧ P fs.length (feed fs s).2 := by
  induction fs generalizing s answer P with
  | nil => exact ⟨rfl, hstart⟩
  | cons f fs ih =>
    obtain ⟨t, ht, hresult, hnext⟩ := hstep 0 (Nat.zero_lt_succ _) s hstart
    obtain ⟨hanswers, hend⟩ := ih (answer := fun j => answer (j + 1)) (P := fun j => P (j + 1)) hnext
      fun j hj u hu => hstep (j + 1) (Nat.succ_lt_succ hj) u hu
    have hcons : feed (f :: fs) s = (answer 0 :: (feed fs t).1, (feed fs t).2) := feed_cons ht hresult fs
    rw [hcons]
    refine ⟨?_, hend⟩
    rw [hanswers, List.length_cons, List.range_succ_eq_map, List.map_cons, List.map_map]
    rfl

/-! ### A transfer is delivered (R278) -/

theorem onlySlot_refl (s : State) (k : Fin 8) : OnlySlot s s k := ⟨rfl, rfl, rfl, fun _ _ => rfl⟩

theorem onlySlot_trans {s t u : State} {k : Fin 8} (h : OnlySlot s t k) (h' : OnlySlot t u k) : OnlySlot s u k := by
  obtain ⟨htx, hparams, hrequests, hslots⟩ := h
  obtain ⟨htx', hparams', hrequests', hslots'⟩ := h'
  exact ⟨htx'.trans htx, hparams'.trans hparams, hrequests'.trans hrequests,
    fun j hj => (hslots' j hj).trans (hslots j hj)⟩

/-- An identifier that had no slot has got the one that changed. -/
theorem eq_of_onlySlot_of_owns {s t : State} {j k : Fin 8} {id : BitVec 29} (h : OnlySlot s t k)
    (hnone : ¬ Owns s j id) (hown : Owns t j id) : j = k := by
  by_contra hj
  rw [Owns, h.2.2.2 j hj] at hown
  exact hnone hown

/-- The answers to the frames of a transfer: the message to the last frame, none before. -/
def transferAnswer (n : Nat) (m : ReceivedMessage) (j : Nat) : Option ReceivedMessage := if j + 1 = n then some m else none

theorem map_transferAnswer (n : Nat) (m : ReceivedMessage) :
    (List.range (n + 1)).map (transferAnswer (n + 1) m) = List.replicate n none ++ [some m] := by
  have hbefore : (List.range n).map (transferAnswer (n + 1) m) = List.replicate n none := by
    refine List.eq_replicate_iff.mpr ⟨by simp, fun a ha => ?_⟩
    obtain ⟨j, hj, rfl⟩ := List.mem_map.mp ha
    exact if_neg (by have := List.mem_range.mp hj; omega)
  rw [List.range_succ, List.map_append, hbefore, List.map_singleton, transferAnswer, if_pos rfl]

/-- Where a decoder that was at `u` stands after `j` frames of a transfer of several frames: before the first, midway with
a slot for it, or at the end with that slot empty. -/
inductive Fed (id : BitVec 29) (body : Bytes) (u : State) (j : Nat) (v : State) : Prop
  | start (hj : j = 0) (hv : v = u)
  | midway (k : Fin 8) (hj : j ≠ 0) (hmore : j < frameCount body.length) (h : Receiving id (crc16 body) body j k v)
      (hslot : OnlySlot u v k)
  | done (k : Fin 8) (hj : j = frameCount body.length) (hslot : OnlySlot u v k) (hempty : (slotAt v.rx k).occ = false)

section
variable {idIn : BitVec 32} {body : Bytes} {j : Nat} {k : Fin 8} {ts : BitVec 64} {u v : State} {m : Message}

/-- The last frame delivers the message that `DECODE` makes of the body, and leaves the slot empty (R275). -/
theorem receiveFrame_last_delivers (h : Receiving (idIn.setWidth 29) (crc16 body) body j k u)
    (hlog : mtOf (idIn.setWidth 29) ≠ 255) (hmulti : 8 ≤ body.length) (hmax : body.length ≤ 256)
    (hj : j + 1 = frameCount body.length) (hj0 : j ≠ 0)
    (hdecode : decodeMessage u.params (mtOf (idIn.setWidth 29)) body = some m) :
    ∃ t, receiveFrame idIn (transferData (crc16 body) body j) ts u = .next t ∧
      t.result = .received (some ⟨idIn.setWidth 29, crc16 body, m⟩) ∧ (slotAt t.rx k).occ = false := by
  obtain ⟨sl, -, hid, hcrc, hbytes, heq⟩ := receiveFrame_later (ts := ts) h hlog hmulti hmax (by omega) hj0
  have hwhole : slotBytes (slotAt (setSlot u.rx k sl) k) = body := by
    rw [setSlot_get_self, hbytes, place_succ_of_last hj, List.take_length]
  rw [if_pos hj, complete_of_slotBytes hwhole] at heq
  exact ⟨_, heq, by simp [hid, hcrc, hdecode], by simp⟩

/-- One frame of a transfer of several frames. -/
theorem receiveFrame_fed (h : Fed (idIn.setWidth 29) body u j v) (hlog : mtOf (idIn.setWidth 29) ≠ 255)
    (hmulti : 8 ≤ body.length) (hmax : body.length ≤ 256) (hnone : ∀ k, ¬ Owns u k (idIn.setWidth 29))
    (hdecode : decodeMessage u.params (mtOf (idIn.setWidth 29)) body = some m) (hj : j < frameCount body.length) :
    ∃ t, receiveFrame idIn (transferData (crc16 body) body j) ts v = .next t ∧
      t.result = .received (transferAnswer (frameCount body.length) ⟨idIn.setWidth 29, crc16 body, m⟩ j) ∧
      Fed (idIn.setWidth 29) body u (j + 1) t := by
  cases h with
  | start hj hv =>
    subst hj hv
    have hseveral : 0 + 1 < frameCount body.length := by rw [frameCount_multi hmulti]; omega
    obtain ⟨t, k, ht, hresult, hfirst⟩ := receiveFrame_first (crc := crc16 body) (ts := ts) hlog hmulti hnone
    have hslot := receiveFrame_onlySlot ht
    rw [← eq_of_onlySlot_of_owns hslot (hnone k) hfirst.owns] at hslot
    refine ⟨t, ht, ?_, .midway k one_ne_zero hseveral hfirst hslot⟩
    rw [hresult, transferAnswer, if_neg hseveral.ne]
  | midway k hj0 hmore hreceiving hslot =>
    obtain hlast | hlater := eq_or_lt_of_le (Nat.succ_le_of_lt hmore)
    · obtain ⟨t, ht, hresult, hempty⟩ :=
        receiveFrame_last_delivers (ts := ts) hreceiving hlog hmulti hmax hlast hj0 (by rw [hslot.2.1, hdecode])
      have hslot' := receiveFrame_onlySlot ht
      rw [hreceiving.lookup_eq] at hslot'
      refine ⟨t, ht, ?_, .done k hlast (onlySlot_trans hslot hslot') hempty⟩
      rw [hresult, transferAnswer, if_pos hlast]
    · obtain ⟨t, ht, hresult, hnext⟩ := receiveFrame_middle (ts := ts) hreceiving hlog hmulti hmax hlater hj0
      have hslot' := receiveFrame_onlySlot ht
      rw [hreceiving.lookup_eq] at hslot'
      refine ⟨t, ht, ?_, .midway k (Nat.succ_ne_zero j) hlater hnext (onlySlot_trans hslot hslot')⟩
      rw [hresult, transferAnswer, if_neg hlater.ne]
  | done k hdone => omega

end

/-- What the frames of a transfer are to leave of a decoder at `u` (R278). -/
def Delivered (u : State) (L : Nat) (m : ReceivedMessage) (out : List (Option ReceivedMessage) × State) : Prop :=
  out.1 = List.replicate (frameCount L - 1) none ++ [some m] ∧ (L ≤ 7 → out.2.rx = u.rx) ∧
    ∃ k, OnlySlot u out.2 k ∧ (8 ≤ L → (slotAt out.2.rx k).occ = false)

section
variable {idIn : BitVec 32} {body : Bytes} {ts : Nat → BitVec 64} {u : State} {m : Message}

/-- A transfer of several frames. -/
theorem feed_multi_delivered (hlog : mtOf (idIn.setWidth 29) ≠ 255) (hmulti : 8 ≤ body.length)
    (hmax : body.length ≤ 256) (hnone : ∀ k, ¬ Owns u k (idIn.setWidth 29))
    (hdecode : decodeMessage u.params (mtOf (idIn.setWidth 29)) body = some m) :
    Delivered u body.length ⟨idIn.setWidth 29, crc16 body, m⟩
      (feed ((List.range (frameCount body.length)).map (busFrame idIn (crc16 body) body ts)) u) := by
  obtain ⟨n, hn⟩ := Nat.exists_eq_succ_of_ne_zero (frameCount_pos (L := body.length) (by omega)).ne'
  have hsteps := feed_of_steps
    (fs := (List.range (frameCount body.length)).map (busFrame idIn (crc16 body) body ts))
    (answer := transferAnswer (frameCount body.length) ⟨idIn.setWidth 29, crc16 body, m⟩)
    (P := Fed (idIn.setWidth 29) body u) (.start rfl rfl) fun j hj v hv => by
      simpa [busFrame] using receiveFrame_fed (ts := ts j) hv hlog hmulti hmax hnone hdecode (by simpa using hj)
  rw [List.length_map, List.length_range] at hsteps
  obtain ⟨hanswers, hend⟩ := hsteps
  refine ⟨?_, fun hsingle => by omega, ?_⟩
  · rw [hanswers, hn, map_transferAnswer]
    rfl
  · cases hend with
    | start hj => omega
    | midway k _ hmore => exact absurd hmore (lt_irrefl _)
    | done k _ hslot hempty => exact ⟨k, hslot, fun _ => hempty⟩

/-- The data bytes of a transfer of one frame: the body and the tail (R243). -/
theorem transferData_single (crc : BitVec 16) (hpos : 1 ≤ body.length) (hsingle : body.length ≤ 7) :
    transferData crc body 0 = body ++ [tailByte true true false 0] := by
  have hlast : 0 + 1 = frameCount body.length := (frameCount_single hpos hsingle).symm
  rw [transferData, leadOf_single hsingle, partOf, place_zero, place_succ_of_last hlast, ← txTail_single hsingle 0]
  simp [txTail]

/-- A transfer of one frame touches no slot (R266). -/
theorem feed_single_delivered (hlog : mtOf (idIn.setWidth 29) ≠ 255) (hpos : 1 ≤ body.length)
    (hsingle : body.length ≤ 7) (hdecode : decodeMessage u.params (mtOf (idIn.setWidth 29)) body = some m) :
    Delivered u body.length ⟨idIn.setWidth 29, crc16 body, m⟩
      (feed ((List.range (frameCount body.length)).map (busFrame idIn (crc16 body) body ts)) u) := by
  have hframe := receiveFrame_single (tail := tailByte true true false 0) (ts := ts 0) (s := u) hsingle hlog
    (by simp) (by simp)
  rw [if_neg (by simp), hdecode, Option.map_some, ← transferData_single (crc16 body) hpos hsingle] at hframe
  rw [Delivered, frameCount_single hpos hsingle, List.range_one, List.map_singleton, busFrame, feed_cons hframe rfl]
  exact ⟨rfl, fun _ => rfl, 0, onlySlot_refl u 0, fun hmulti => by omega⟩

end

/-- The frames of a transfer, fed to a decoder in which its identifier has no slot. -/
theorem feed_transfer_delivered {id : BitVec 29} {body : Bytes} (ts : Nat → BitVec 64) {u : State} {m : Message}
    (hlog : mtOf id ≠ 255) (hpos : 1 ≤ body.length) (hmax : body.length ≤ 256) (hnone : ∀ k, ¬ Owns u k id)
    (hdecode : decodeMessage u.params (mtOf id) body = some m) :
    Delivered u body.length ⟨id, crc16 body, m⟩
      (feed (onBus ts ((List.range (frameCount body.length)).map (transferFrame id (crc16 body) body))) u) := by
  obtain ⟨idIn, hin, rfl⟩ : ∃ idIn : BitVec 32, id.setWidth 32 = idIn ∧ id = idIn.setWidth 29 := ⟨_, rfl, by simp⟩
  rw [onBus_transfer, hin]
  by_cases hsingle : body.length ≤ 7
  · exact feed_single_delivered hlog hpos hsingle hdecode
  · exact feed_multi_delivered hlog (by omega) hmax hnone hdecode

/-- Settles O50: the frames sent are those of a transfer, which is delivered. -/
theorem endToEnd : Obligations.EndToEnd := by
  intro row sel body nt ni ts s hrow hmt hpos hlen
  obtain ⟨c, hc, rfl⟩ := classOf_of_row hrow hmt
  have hload := execTxLoad_of_class (nt := nt) (ni := ni) (s := s) hc hlen
  obtain ⟨hloaded, hoffset, htoggle, -, hsel, hlog⟩ := execTxLoad_next hload
  obtain ⟨hframes, -⟩ := send_of_loaded hloaded hoffset htoggle
  have hmax : body.length ≤ 36 := hlen.trans_le (sizeBytes_le c)
  refine ⟨_, _, _, hload, exec_wireId_of_class hc _ _, exec_crc16 body s, fun u hnone => ?_⟩
  have hdecode : decodeMessage u.params sel body = some ⟨sel, body⟩ := decodeMessage_exact _ hc hlen
  rw [← hlen] at hpos ⊢
  rw [hframes]
  exact feed_transfer_delivered ts (hsel.symm ▸ hlog) hpos (by omega) hnone (hsel.symm ▸ hdecode)

/-! ### The oldest transfer gives way (R279) -/

/-- Nine openings, the first `n` of them done: opening `j` stands in slot `j mod 8` until the next one there, and a slot
that none has come to is empty. -/
def OpeningsHeld (ids : Fin 9 → BitVec 29) (ts : Fin 9 → BitVec 64) (n : Nat) (s : State) : Prop :=
  ∀ k : Fin 8, (n ≤ k.val → (slotAt s.rx k).occ = false) ∧
    ∀ j : Fin 9, j.val < n → n ≤ j.val + 8 → j.val % 8 = k.val → Owns s k (ids j) ∧ (slotAt s.rx k).ts = ts j

section
variable {ids : Fin 9 → BitVec 29} {ts : Fin 9 → BitVec 64} {n : Nat} {s t : State}

/-- A slot that an opening has come to holds the last one that did. -/
theorem OpeningsHeld.last (h : OpeningsHeld ids ts n s) (hn : n ≤ 9) {k : Fin 8} (hk : k.val < n) :
    ∃ j : Fin 9, j.val < n ∧ n ≤ j.val + 8 ∧ j.val % 8 = k.val ∧ Owns s k (ids j) ∧ (slotAt s.rx k).ts = ts j := by
  by_cases hround : n ≤ k.val + 8
  · have hmod : k.val % 8 = k.val := Nat.mod_eq_of_lt k.isLt
    exact ⟨⟨k.val, by omega⟩, hk, hround, hmod, (h k).2 ⟨k.val, by omega⟩ hk hround hmod⟩
  · exact ⟨8, show 8 < n by omega, show n ≤ 8 + 8 by omega, show 8 % 8 = k.val by omega,
      (h k).2 8 (show 8 < n by omega) (show n ≤ 8 + 8 by omega) (show 8 % 8 = k.val by omega)⟩

/-- An opening still to come, or one overwritten, has no slot. -/
theorem OpeningsHeld.not_owns (h : OpeningsHeld ids ts n s) (hn : n ≤ 9) (hinj : ∀ i j, ids i = ids j → i = j)
    {i : Fin 9} (hi : ¬ (i.val < n ∧ n ≤ i.val + 8)) (k : Fin 8) : ¬ Owns s k (ids i) := by
  rintro ⟨hocc, hid⟩
  by_cases hk : k.val < n
  · obtain ⟨j, hj, hj8, -, ⟨-, hown⟩, -⟩ := h.last hn hk
    obtain rfl := hinj j i (hown.symm.trans hid)
    exact hi ⟨hj, hj8⟩
  · simp [(h k).1 (Nat.le_of_not_lt hk)] at hocc

/-- One more opening, in the slot of its number. -/
theorem OpeningsHeld.next (h : OpeningsHeld ids ts n s) {i : Fin 9} (hi : i.val = n) {k : Fin 8} (hk : k.val = n % 8)
    {c0 c1 : Byte} {rest : Bytes} (hopened : Opened s t k (ids i) (ts i) c0 c1 rest) :
    OpeningsHeld ids ts (n + 1) t := by
  obtain ⟨-, ⟨-, -, -, hothers⟩, hown, hts, -⟩ := hopened
  intro l
  by_cases hl : l = k
  · subst hl
    refine ⟨fun hle => by omega, fun j hj hj8 hjl => ?_⟩
    obtain rfl : j = i := Fin.ext (by omega)
    exact ⟨hown, hts⟩
  · have hne : l.val ≠ k.val := fun heq => hl (Fin.ext heq)
    simp only [Owns, hothers l hl]
    exact ⟨fun hle => (h l).1 (by omega), fun j hj hj8 hjl => (h l).2 j (by omega) (by omega) hjl⟩

/-- Once all slots are taken, the one that the next opening comes to is the oldest. -/
theorem OpeningsHeld.oldest (h : OpeningsHeld ids ts n s) (hn : n ≤ 9) (hfull : 8 ≤ n)
    (hts : ∀ i j, i < j → (ts i).toNat < (ts j).toNat) {k : Fin 8} (hk : k.val = n - 8) :
    (∀ l : Fin 8, (slotAt s.rx l).occ = true) ∧
    (∀ l : Fin 8, (slotAt s.rx k).ts.toNat ≤ (slotAt s.rx l).ts.toNat) ∧
    ∀ l < k, (slotAt s.rx l).ts ≠ (slotAt s.rx k).ts := by
  have hmono : StrictMono fun i => (ts i).toNat := fun i j => hts i j
  have hlast (l : Fin 8) := h.last hn (k := l) (by omega)
  obtain ⟨i, hi, hi8, hik, -, htsk⟩ := hlast k
  have hival : i.val = n - 8 := by omega
  refine ⟨fun l => ?_, fun l => ?_, fun l hl heq => ?_⟩
  · obtain ⟨-, -, -, -, ⟨hocc, -⟩, -⟩ := hlast l
    exact hocc
  · obtain ⟨j, -, hj8, -, -, htsl⟩ := hlast l
    rw [htsk, htsl]
    exact hmono.monotone (Fin.le_def.mpr (by omega))
  · obtain ⟨j, -, -, hjl, -, htsl⟩ := hlast l
    rw [htsk, htsl] at heq
    obtain rfl : j = i := hmono.injective (congrArg BitVec.toNat heq)
    exact absurd (Fin.ext (hjl.symm.trans hik)) (ne_of_lt hl)

end

section
variable {ids : Fin 9 → BitVec 32} {ts : Fin 9 → BitVec 64} {n : Nat} {s : State}

/-- The next opening takes the first empty slot (R267), or the oldest (R268, R276). -/
theorem OpeningsHeld.receives_next (h : OpeningsHeld (fun j => (ids j).setWidth 29) ts n s)
    (hlog : ∀ j, mtOf ((ids j).setWidth 29) ≠ 255)
    (hinj : ∀ i j, (ids i).setWidth 29 = (ids j).setWidth 29 → i = j)
    (hts : ∀ i j, i < j → (ts i).toNat < (ts j).toNat) {i : Fin 9} (hi : i.val = n) (c0 c1 : Byte) {rest : Bytes}
    (r : BitVec 5) (hpos : 1 ≤ rest.length) (hmax : rest.length ≤ 5) :
    ∃ t, Receives s (ids i) ([c0, c1] ++ rest) true false false r (ts i) t ∧ t.result = .received none ∧
      OpeningsHeld (fun j => (ids j).setWidth 29) ts (n + 1) t := by
  have hnone : ∀ k, ¬ Owns s k ((ids i).setWidth 29) := h.not_owns (by omega) hinj (by omega)
  obtain ⟨k, hk, t, ht, hopened⟩ : ∃ k : Fin 8, k.val = n % 8 ∧
      ∃ t, Receives s (ids i) ([c0, c1] ++ rest) true false false r (ts i) t ∧
        Opened s t k ((ids i).setWidth 29) (ts i) c0 c1 rest := by
    by_cases hfull : 8 ≤ n
    · obtain ⟨hocc, holdest, hfirst⟩ := h.oldest (by omega) hfull hts (k := 0) (by rw [Fin.val_zero]; omega)
      exact ⟨0, by rw [Fin.val_zero]; omega,
        (rxEvicts (ids i) r (ts i) s 0 (hlog i) hnone hocc holdest hfirst).1 c0 c1 rest hpos hmax⟩
    · refine ⟨⟨n, by omega⟩, (Nat.mod_eq_of_lt (by omega)).symm,
        rxOpens (ids i) c0 c1 rest r (ts i) s _ hpos hmax (hlog i) hnone ((h _).1 le_rfl) fun l hl => ?_⟩
      obtain ⟨-, -, -, -, ⟨hocc, -⟩, -⟩ := h.last (by omega) (k := l) hl
      exact hocc
  exact ⟨t, ht, hopened.1, h.next hi hk hopened⟩

end

/-- No opening yet: every slot is empty after `RX_RESET` (R260). -/
theorem openingsHeld_of_reset (ids : Fin 9 → BitVec 29) (ts : Fin 9 → BitVec 64) {s fresh : State}
    (h : exec .rxReset s = .next fresh) : OpeningsHeld ids ts 0 fresh := by
  cases h
  exact fun k => ⟨fun _ => by simp, nofun⟩

/-- Settles O52, by the slots after each opening. -/
theorem lruLaw : Obligations.LruLaw := by
  intro ids ts d s fresh hlog hinj hts hd hreset
  obtain ⟨hanswers, hheld⟩ := feed_of_steps (fs := (List.finRange 9).map fun j => (ids j, d j, ts j))
    (answer := fun _ => none) (openingsHeld_of_reset (fun j => (ids j).setWidth 29) ts hreset) fun n hn u hu => by
      have hn9 : n < 9 := by simpa using hn
      obtain ⟨c0, c1, rest, r, heq, hpos, hmax⟩ := hd ⟨n, hn9⟩
      obtain ⟨t, ht, hresult, hnext⟩ := hu.receives_next hlog hinj hts (i := ⟨n, hn9⟩) rfl c0 c1 r hpos hmax
      rw [Receives, ← heq, exec_rxFrame] at ht
      exact ⟨t, by simpa using ht, hresult, hnext⟩
  rw [List.length_map, List.length_finRange] at hanswers hheld
  intro out
  refine ⟨hanswers, ((hheld 0).2 8 (by decide) (by decide) rfl).1, fun k j hk hjk => ?_, fun body eot tog r ts' hlen => ?_⟩
  · exact ((hheld k).2 j j.isLt (by omega) (by omega)).1
  · obtain ⟨hocc, holdest, hfirst⟩ := hheld.oldest le_rfl (by decide) hts (k := 1) rfl
    have hnone : ∀ k, ¬ Owns out.2 k ((ids 0).setWidth 29) := hheld.not_owns (i := 0) le_rfl hinj (by decide)
    exact (rxEvicts (ids 0) r ts' out.2 1 (hlog 0) hnone hocc holdest hfirst).2 body false eot tog hlen (by simp) (by simp)

end Sys2Proof.Proofs
end
